-- ==== Sys2Proof/Word.lean ====
section
/-! DEFINITION. The words of the block's interface: the widths of a request, of a data word and of a
byte offset in the register window (00_scope.md R9, 30_encoding.md R81). -/

namespace Sys2Proof

/-- A 32-bit data word: WDATA, RDATA and every register as the bus shows it (10_state.md R24). -/
abbrev Word := BitVec 32

/-- A 16-bit request word REQ (30_encoding.md R81, R82). -/
abbrev ReqWord := BitVec 16

/-- A byte offset in the 4 KiB register window (10_state.md R24). -/
abbrev Offset := BitVec 12

/-- A 16-bit field of a generator: PERIOD, SHD, ACT, CNT (00_scope.md R7, CNT_WIDTH). -/
abbrev Count16 := BitVec 16

/-- A 24-bit field of the timer: N, TCNT (00_scope.md R7, TRELOAD_WIDTH). -/
abbrev Count24 := BitVec 24

end Sys2Proof
end

