-- ==== Sys2Proof/Syntax.lean ====
section
/-! DEFINITION. What the host can say to the block: the registers by name, the 25 operations of the
opcode map (one constructor per row of opcode_table.json), a raw request, the inputs of one cycle, and
the transaction syntax with its pseudo-instructions. -/

namespace Sys2Proof

/-- The two generator instances, A (LED) and B (servo) (41_pwm_generator.md R110). -/
inductive GenId where
  | a
  | b
  deriving DecidableEq, Repr

/-- The registers of the window, by their names in 10_state.md R25. -/
inductive Reg where
  | clkcfg
  | aCtrl | aPeriod | aDuty | aDutyact | aCount
  | bCtrl | bPeriod | bDuty | bDutyact | bCount
  | tctrl | treload | tcount
  | errstat | errdata
  deriving DecidableEq, Repr

/-- The operations of 30_encoding.md R87, one constructor per row of the opcode table. A write carries
its only operand, WDATA[31:0] (R84); a read has no operand. -/
inductive Instr where
  | rdClkcfg
  | wrClkcfg (wdata : Word)
  | rdACtrl
  | wrACtrl (wdata : Word)
  | rdAPeriod
  | wrAPeriod (wdata : Word)
  | rdADuty
  | wrADuty (wdata : Word)
  | rdADutyact
  | rdACount
  | rdBCtrl
  | wrBCtrl (wdata : Word)
  | rdBPeriod
  | wrBPeriod (wdata : Word)
  | rdBDuty
  | wrBDuty (wdata : Word)
  | rdBDutyact
  | rdBCount
  | rdTctrl
  | wrTctrl (wdata : Word)
  | rdTreload
  | wrTreload (wdata : Word)
  | rdTcount
  | rdErrstat
  | rdErrdata
  deriving DecidableEq, Repr

/-- One transaction as the ports carry it: the request word and the write data, which has a meaning
only when REQ.WE = 1 (30_encoding.md R81). -/
structure Request where
  req : ReqWord
  wdata : Word
  deriving DecidableEq, Repr, Inhabited

/-- The draw ord_n (00_scope.md R12): the order of a host transaction and a ramp step in one cycle. -/
inductive Order where
  | busFirst
  | rampFirst
  deriving DecidableEq, Repr, Inhabited

/-- Everything that enters the block in one cycle: the RST pin, the host's choice req_n (none when
REQ_VALID is low) and the draw ord_n (10_state.md R43, 00_scope.md R12). -/
structure CycleInput where
  rst : Bool
  request : Option Request
  order : Order
  deriving DecidableEq, Repr, Inhabited

/-- A line of the transaction syntax (30_encoding.md R90). The literals are natural numbers here;
WellFormed holds their bounds. -/
inductive Line where
  | rd (r : Reg)
  | wr (r : Reg) (value : Nat)
  | raw (word : Nat) (data : Option Nat)
  | idle (n : Nat)
  deriving DecidableEq, Repr

/-- The pseudo-instructions (30_encoding.md R91), the source's driver operations. -/
inductive Pseudo where
  | clkInit
  | pwmInit (g : GenId) (period duty : Nat)
  | setDuty (g : GenId) (duty : Nat)
  | timerInit (n : Nat)
  | timerStop
  | delayMs (n : Nat)
  | bringup
  deriving DecidableEq, Repr

end Sys2Proof
end

