-- ==== Sys2Proof/Config.lean ====
section
/-! DEFINITION. What is fixed for the block (00_scope.md R6), what the implementation chooses
(00_scope.md R7), and the free values: the OPEN base address and the environment's draws (R12). -/

namespace Sys2Proof

/-- RAMP_WRAP_CMP (00_scope.md R7; 90_conflicts.md C1). -/
inductive WrapCmp where
  | ge
  | gt
  deriving DecidableEq, Repr

/-- RAMP_WRITE_POLICY (00_scope.md R7; 90_conflicts.md C2). -/
inductive WritePolicy where
  | everyTick
  | stepOnly
  deriving DecidableEq, Repr

/-- BTN_POLICY (00_scope.md R7; 90_conflicts.md C7): a parameter of the HOST's button dispatch. -/
inductive BtnPolicy where
  | lowestBitWins
  | singleBitOnly
  deriving DecidableEq, Repr

namespace Config

/-- F_SYS_HZ: one step is one f_sys cycle, 20 ns (00_scope.md R6). -/
def fSysHz : Nat := 50000000

/-- PWM_DIV, the product's divisor D (00_scope.md R6). -/
def pwmDiv : Nat := 16

/-- PERIOD_50HZ (00_scope.md R6). -/
def period50Hz : Nat := 62500

/-- DUTY_A_INIT (00_scope.md R6). -/
def dutyAInit : Nat := 3125

/-- DUTY_B_INIT (00_scope.md R6). -/
def dutyBInit : Nat := 1875

/-- TICK_HZ (00_scope.md R6). -/
def tickHz : Nat := 1000

/-- RAMP_STEP, the ramp's increment and decrement (00_scope.md R6). -/
def rampStep : Word := 50#32

/-- RAMP_DIV: the ramp steps when elapsed_ms mod RAMP_DIV is 0 (00_scope.md R6). -/
def rampDiv : Word := 5#32

/-- RAMP_CAP, the wrap threshold (00_scope.md R6). -/
def rampCap : Word := 56250#32

/-- TRELOAD_1KHZ = F_SYS_HZ / TICK_HZ (00_scope.md R7). -/
def treload1kHz : Nat := fSysHz / tickHz

/-- CLKCFG_INIT: DIVEN = 1, DIVLOG2 = 4 (00_scope.md R7). -/
def clkcfgInit : Nat := 0x41

/-- PWMBLK_BASE, the bus address of offset 0x000: OPEN (00_scope.md R7), so no proof can see it.
PRESUMED: an address has 32 bits, as on the host the source names (log entry 4). Safe: no operation
of the block reads it. -/
opaque pwmblkBase : BitVec 32

/-- The environment's draws (00_scope.md R12): the k-th cycle that takes its inputs from the
environment takes `cycleDraw k`. It has no body to reason about, so a proof holds for every choice
of RST, req_n and ord_n (log entry 2). Safe. -/
opaque cycleDraw : Nat → CycleInput

end Config

end Sys2Proof
end

