-- ==== Sys2Proof/Decode.lean ====
section
/-! DEFINITION. The register map, the request word's fields, the total decoder of 30_encoding.md R86,
and after it the encoder, written from the map of R87. -/

namespace Sys2Proof

/-- The error codes of 60_exceptions.md R181. -/
inductive ErrCode where
  | width
  | align
  | unmapped
  | readOnly
  | locked
  | state
  | range
  deriving DecidableEq, Repr

/-- What a request word decodes to: an operation, or an error by name (30_encoding.md R86). -/
inductive Decoded where
  | op (i : Instr)
  | error (code : ErrCode)
  deriving DecidableEq, Repr

/-- The byte offsets of 10_state.md R25. -/
def regOffset : Reg → Offset
  | .clkcfg => 0x000#12
  | .aCtrl => 0x040#12
  | .aPeriod => 0x044#12
  | .aDuty => 0x048#12
  | .aDutyact => 0x04C#12
  | .aCount => 0x050#12
  | .bCtrl => 0x080#12
  | .bPeriod => 0x084#12
  | .bDuty => 0x088#12
  | .bDutyact => 0x08C#12
  | .bCount => 0x090#12
  | .tctrl => 0x100#12
  | .treload => 0x104#12
  | .tcount => 0x108#12
  | .errstat => 0x1F0#12
  | .errdata => 0x1F4#12

/-- The registers in the order of 10_state.md R25. -/
def allRegs : List Reg :=
  [.clkcfg, .aCtrl, .aPeriod, .aDuty, .aDutyact, .aCount,
   .bCtrl, .bPeriod, .bDuty, .bDutyact, .bCount,
   .tctrl, .treload, .tcount, .errstat, .errdata]

/-- The register at an offset, if one is mapped there (20_memory.md R66). -/
def regAt (off : Offset) : Option Reg :=
  allRegs.find? (fun r => regOffset r == off)

/-- REQ.WE, bit 15 (30_encoding.md R82). -/
def reqWe (q : ReqWord) : Bool := q.getLsbD 15

/-- REQ.SIZE, bits 14:13, log2 of the access size in bytes (30_encoding.md R82, R83). -/
def reqSize (q : ReqWord) : BitVec 2 := q.extractLsb' 13 2

/-- REQ.X, bit 12 (30_encoding.md R82). -/
def reqX (q : ReqWord) : Bool := q.getLsbD 12

/-- REQ.OFFSET, bits 11:0 (30_encoding.md R82). -/
def reqOffset (q : ReqWord) : Offset := q.extractLsb' 0 12

/-- The read operation of a register: every register can be read (10_state.md R25). -/
def readOp : Reg → Instr
  | .clkcfg => .rdClkcfg
  | .aCtrl => .rdACtrl
  | .aPeriod => .rdAPeriod
  | .aDuty => .rdADuty
  | .aDutyact => .rdADutyact
  | .aCount => .rdACount
  | .bCtrl => .rdBCtrl
  | .bPeriod => .rdBPeriod
  | .bDuty => .rdBDuty
  | .bDutyact => .rdBDutyact
  | .bCount => .rdBCount
  | .tctrl => .rdTctrl
  | .treload => .rdTreload
  | .tcount => .rdTcount
  | .errstat => .rdErrstat
  | .errdata => .rdErrdata

/-- The write operation of a register; none for the RO registers of 10_state.md R25. -/
def writeOp : Reg → Word → Option Instr
  | .clkcfg, w => some (.wrClkcfg w)
  | .aCtrl, w => some (.wrACtrl w)
  | .aPeriod, w => some (.wrAPeriod w)
  | .aDuty, w => some (.wrADuty w)
  | .aDutyact, _ => none
  | .aCount, _ => none
  | .bCtrl, w => some (.wrBCtrl w)
  | .bPeriod, w => some (.wrBPeriod w)
  | .bDuty, w => some (.wrBDuty w)
  | .bDutyact, _ => none
  | .bCount, _ => none
  | .tctrl, w => some (.wrTctrl w)
  | .treload, w => some (.wrTreload w)
  | .tcount, _ => none
  | .errstat, _ => none
  | .errdata, _ => none

/-- Decode(REQ) of 30_encoding.md R86, its checks in its order. Total on every 16-bit word. -/
def decode (q : ReqWord) (wdata : Word) : Decoded :=
  if reqSize q ≠ 2#2 then .error .width
  else if (reqOffset q).extractLsb' 0 2 ≠ 0#2 then .error .align
  else if reqX q then .error .unmapped
  else match regAt (reqOffset q) with
    | none => .error .unmapped
    | some r =>
      if reqWe q then
        match writeOp r wdata with
        | some i => .op i
        | none => .error .readOnly
      else .op (readOp r)

/-- The request word of a word read at an offset: WE = 0, SIZE = 2, X = 0 (30_encoding.md R82). -/
def readWord (r : Reg) : ReqWord := 0b0100#4 ++ regOffset r

/-- The request word of a word write at an offset: WE = 1, SIZE = 2, X = 0 (30_encoding.md R82). -/
def writeWord (r : Reg) : ReqWord := 0b1100#4 ++ regOffset r

/-- The transaction of an operation: its request word from the map of 30_encoding.md R87, and its
WDATA (0 for a read, whose WDATA has no meaning, R81). -/
def encode : Instr → Request
  | .rdClkcfg => ⟨readWord .clkcfg, 0#32⟩
  | .wrClkcfg w => ⟨writeWord .clkcfg, w⟩
  | .rdACtrl => ⟨readWord .aCtrl, 0#32⟩
  | .wrACtrl w => ⟨writeWord .aCtrl, w⟩
  | .rdAPeriod => ⟨readWord .aPeriod, 0#32⟩
  | .wrAPeriod w => ⟨writeWord .aPeriod, w⟩
  | .rdADuty => ⟨readWord .aDuty, 0#32⟩
  | .wrADuty w => ⟨writeWord .aDuty, w⟩
  | .rdADutyact => ⟨readWord .aDutyact, 0#32⟩
  | .rdACount => ⟨readWord .aCount, 0#32⟩
  | .rdBCtrl => ⟨readWord .bCtrl, 0#32⟩
  | .wrBCtrl w => ⟨writeWord .bCtrl, w⟩
  | .rdBPeriod => ⟨readWord .bPeriod, 0#32⟩
  | .wrBPeriod w => ⟨writeWord .bPeriod, w⟩
  | .rdBDuty => ⟨readWord .bDuty, 0#32⟩
  | .wrBDuty w => ⟨writeWord .bDuty, w⟩
  | .rdBDutyact => ⟨readWord .bDutyact, 0#32⟩
  | .rdBCount => ⟨readWord .bCount, 0#32⟩
  | .rdTctrl => ⟨readWord .tctrl, 0#32⟩
  | .wrTctrl w => ⟨writeWord .tctrl, w⟩
  | .rdTreload => ⟨readWord .treload, 0#32⟩
  | .wrTreload w => ⟨writeWord .treload, w⟩
  | .rdTcount => ⟨readWord .tcount, 0#32⟩
  | .rdErrstat => ⟨readWord .errstat, 0#32⟩
  | .rdErrdata => ⟨readWord .errdata, 0#32⟩

/-- Whether an operation is a write, the class of 30_encoding.md R80 it belongs to. -/
def isWrite : Instr → Bool
  | .wrClkcfg _ | .wrACtrl _ | .wrAPeriod _ | .wrADuty _ => true
  | .wrBCtrl _ | .wrBPeriod _ | .wrBDuty _ => true
  | .wrTctrl _ | .wrTreload _ => true
  | .rdClkcfg | .rdACtrl | .rdAPeriod | .rdADuty | .rdADutyact | .rdACount => false
  | .rdBCtrl | .rdBPeriod | .rdBDuty | .rdBDutyact | .rdBCount => false
  | .rdTctrl | .rdTreload | .rdTcount | .rdErrstat | .rdErrdata => false

/-- WR.g_CTRL of a generator (30_encoding.md R87: the rows of A and B share one rule). -/
def ctrlWrite : GenId → Word → Instr
  | .a, w => .wrACtrl w
  | .b, w => .wrBCtrl w

/-- WR.g_PERIOD of a generator (30_encoding.md R87). -/
def periodWrite : GenId → Word → Instr
  | .a, w => .wrAPeriod w
  | .b, w => .wrBPeriod w

/-- WR.g_DUTY of a generator (30_encoding.md R87). -/
def dutyRegWrite : GenId → Word → Instr
  | .a, w => .wrADuty w
  | .b, w => .wrBDuty w

/-- The transaction whose bits are w: REQ is bits 15:0, and WDATA, the operand word that follows it,
is bits 47:16; bits at nbits and above are 0 (log entry 9). -/
def requestOfBits (nbits w : Nat) : Request :=
  ⟨BitVec.ofNat 16 (w % 2 ^ nbits), BitVec.ofNat 32 (w % 2 ^ nbits / 2 ^ 16)⟩

/-- The instruction the decoder reads from the transaction whose bits are w, none where it is an
error. -/
def decodeTableWord (nbits w : Nat) : Option Instr :=
  match decode (requestOfBits nbits w).req (requestOfBits nbits w).wdata with
  | .op i => some i
  | .error _ => none

end Sys2Proof
end

