-- ==== Sys2Proof/Machine/State.lean ====
section
/-! DEFINITION. The state of the block (10_state.md R25 to R44) as plain data, and its reset value. -/

namespace Sys2Proof.Machine

/-- The Clock Configurator: CLKCFG's fields (10_state.md R26) and the hidden prescaler (R37). -/
structure Clock where
  diven : Bool
  divlog2 : BitVec 4
  psc : BitVec 16
  deriving DecidableEq, Repr

/-- One PWM generator: CTRL.EN, PERIOD, the shadow duty SHD, the active duty ACT and the
down-counter CNT (10_state.md R27 to R31). -/
structure Generator where
  en : Bool
  period : Count16
  shd : Count16
  act : Count16
  cnt : Count16
  deriving DecidableEq, Repr

/-- The periodic timer: TCTRL.EN, TRELOAD.N and TCOUNT.TCNT (10_state.md R32 to R34). -/
structure Timer where
  en : Bool
  n : Count24
  tcnt : Count24
  deriving DecidableEq, Repr

/-- The ramp's direction (10_state.md R40). -/
inductive Direction where
  | up
  | down
  deriving DecidableEq, Repr

/-- The hidden ramp state (10_state.md R40). -/
structure Ramp where
  elapsedMs : Word
  duty : Word
  direction : Direction
  deriving DecidableEq, Repr

/-- ERRSTAT's fields CODE, COUNT and REQ, and ERRDATA (10_state.md R35, R36). -/
structure ErrorStatus where
  code : BitVec 4
  count : BitVec 8
  req : ReqWord
  data : Word
  deriving DecidableEq, Repr

/-- The RESP port (10_state.md R43). -/
inductive Resp where
  | okay
  | error
  deriving DecidableEq, Repr

/-- The output ports (10_state.md R42, R43), as the cycle that has just ended left them: RESP and
RDATA of its transaction, and the levels PWM_A and PWM_B (high is true). -/
structure Outputs where
  resp : Resp
  rdata : Word
  pwmA : Bool
  pwmB : Bool
  deriving DecidableEq, Repr

/-- The two implementation parameters the block's behaviour depends on (00_scope.md R7). The model's
own field: no step changes it (log entry 3). -/
structure Params where
  wrapCmp : WrapCmp
  writePolicy : WritePolicy
  deriving DecidableEq, Repr

/-- The state. `clk` to `out` are the block's, every element of 10_state.md R44. `params`, `inputs` and
`drawn` are the model's own (log entries 1 to 3): the parameters; the inputs of the coming cycles that
are already decided, oldest first; and how many cycles have drawn theirs from the environment. -/
structure State where
  clk : Clock
  genA : Generator
  genB : Generator
  timer : Timer
  ramp : Ramp
  err : ErrorStatus
  out : Outputs
  params : Params
  inputs : List CycleInput
  drawn : Nat
  deriving DecidableEq, Repr

/-- A fault would stop the machine. There is none: "The block never halts" (60_exceptions.md R201),
its internal events never raise an error (R184), and a bus error is a response after which the block
goes on (R180). Nobody raises one; safe. -/
inductive Fault where
  deriving DecidableEq, Repr

/-- A refusal is an instruction without a meaning. -/
inductive Refusal where
  /-- Raised by an arm of `exec` whose instruction has no meaning yet; safe, since the machine stops
  there. No arm raises it: every operation has its meaning. -/
  | notModelled (mnemonic : String)
  deriving DecidableEq, Repr

/-- CLKCFG and the prescaler at reset (10_state.md R44). -/
def Clock.reset : Clock := { diven := false, divlog2 := 0#4, psc := 0#16 }

/-- A generator at reset (10_state.md R44). -/
def Generator.reset : Generator := { en := false, period := 0#16, shd := 0#16, act := 0#16, cnt := 0#16 }

/-- The timer at reset (10_state.md R44). -/
def Timer.reset : Timer := { en := false, n := 0#24, tcnt := 0#24 }

/-- The ramp at reset (10_state.md R44). -/
def Ramp.reset : Ramp := { elapsedMs := 0#32, duty := 0#32, direction := .up }

/-- The error record at reset (10_state.md R44). -/
def ErrorStatus.reset : ErrorStatus := { code := 0#4, count := 0#8, req := 0#16, data := 0#32 }

/-- The output ports at reset (10_state.md R44). -/
def Outputs.reset : Outputs := { resp := .okay, rdata := 0#32, pwmA := false, pwmB := false }

/-- The parameters at the spec's defaults (00_scope.md R7). -/
def Params.default : Params := { wrapCmp := .ge, writePolicy := .everyTick }

/-- The machine right after reset: S_0 (10_state.md R44). No inputs are decided yet. -/
def State.reset : State :=
  { clk := Clock.reset, genA := Generator.reset, genB := Generator.reset, timer := Timer.reset,
    ramp := Ramp.reset, err := ErrorStatus.reset, out := Outputs.reset,
    params := Params.default, inputs := [], drawn := 0 }

end Sys2Proof.Machine
end

