-- ==== Sys2Proof/Machine/Flags.lean ====
section
/-! DEFINITION. The one-bit values the spec computes: the events sampled at a cycle's start, the step
test of the ramp, the output levels; and the error codes. The block has no arithmetic flags
(10_state.md R22). -/

namespace Sys2Proof.Machine

/-- D = 2 ^ DIVLOG2 (10_state.md R26). -/
def divisor (c : Clock) : Nat := 2 ^ c.divlog2.toNat

/-- The prescaler is at the last cycle of a PWM tick: psc = D - 1 (40_clock_config.md R103). -/
def pscAtEnd (c : Clock) : Bool := c.psc.toNat == divisor c - 1

/-- The PWM tick of a cycle, from the state at its start (40_clock_config.md R103). -/
def pwmTick (c : Clock) : Bool := c.diven && pscAtEnd c

/-- The timer tick of a cycle, from the state at its start (42_timer_ramp.md R145). -/
def timerTick (t : Timer) : Bool := t.en && t.tcnt == 0#24

/-- The ramp's step test on elapsed_ms, made after its increment (42_timer_ramp.md R151). -/
def rampSteps (elapsedMs : Word) : Bool := elapsedMs % Config.rampDiv == 0#32

/-- The wrap test of the UP branch, by RAMP_WRAP_CMP (42_timer_ramp.md R152). -/
def rampWraps (cmp : WrapCmp) (duty : Word) : Bool :=
  match cmp with
  | .ge => decide (Config.rampCap ≤ duty)
  | .gt => decide (Config.rampCap < duty)

/-- Whether the ramp engine writes its duty to generator A on this tick (42_timer_ramp.md R154). -/
def rampWrites (policy : WritePolicy) (stepped : Bool) : Bool :=
  match policy with
  | .everyTick => true
  | .stepOnly => stepped

/-- OutLevel of a generator (41_pwm_generator.md R125). The subtraction is exact, as 00_scope.md R9
reads one that no rule says is modular. -/
def outLevel (g : Generator) : Bool :=
  g.en && decide ((g.period.toNat : Int) - 1 - (g.cnt.toNat : Int) < (g.act.toNat : Int))

/-- The number of an error code (60_exceptions.md R181). -/
def errCodeNum : ErrCode → BitVec 4
  | .width => 1#4
  | .align => 2#4
  | .unmapped => 3#4
  | .readOnly => 4#4
  | .locked => 5#4
  | .state => 6#4
  | .range => 7#4

end Sys2Proof.Machine
end

