-- ==== Sys2Proof/Machine/Operands.lean ====
section
/-! DEFINITION. The operand forms: the fields of WDATA that a write uses (30_encoding.md R84), the
clamp of a duty, and the assembly of a read's RDATA (R85). -/

namespace Sys2Proof.Machine

/-- WDATA[0]: DIVEN of CLKCFG, EN of g_CTRL and of TCTRL (10_state.md R26, R27, R32). -/
def enField (w : Word) : Bool := w.getLsbD 0

/-- WDATA[7:4]: DIVLOG2 of CLKCFG (10_state.md R26). -/
def divlog2Field (w : Word) : BitVec 4 := w.extractLsb' 4 4

/-- min(v, zext_32(period)) in 16 bits: the clamp of the whole 32-bit value
(41_pwm_generator.md R115). -/
def clampDuty (v : Word) (period : Count16) : Count16 :=
  if v.toNat ≤ period.toNat then v.setWidth 16 else period

/-- A one-bit field at bit 0, the rest 0. -/
def flagWord (b : Bool) : Word := (BitVec.ofBool b).setWidth 32

/-- CLKCFG as the bus shows it: DIVEN at bit 0, DIVLOG2 at 7:4 (40_clock_config.md R100). -/
def clkcfgWord (c : Clock) : Word :=
  (c.divlog2 ++ 0#3 ++ BitVec.ofBool c.diven).setWidth 32

/-- ERRSTAT as the bus shows it: REQ at 31:16, COUNT at 15:8, CODE at 3:0 (43_error_status.md R171). -/
def errstatWord (e : ErrorStatus) : Word := e.req ++ e.count ++ 0#4 ++ e.code

/-- The generator an index names. -/
def genOf (g : GenId) (s : State) : Generator :=
  match g with
  | .a => s.genA
  | .b => s.genB

/-- What a read of a register returns in a state (40_clock_config.md R100; 41_pwm_generator.md R111 to
R114, R119; 42_timer_ramp.md R140, R143, R144; 43_error_status.md R171, R172). -/
def regRead : Reg → State → Word
  | .clkcfg, s => clkcfgWord s.clk
  | .aCtrl, s => flagWord (genOf .a s).en
  | .aPeriod, s => (genOf .a s).period.setWidth 32
  | .aDuty, s => (genOf .a s).shd.setWidth 32
  | .aDutyact, s => (genOf .a s).act.setWidth 32
  | .aCount, s => (genOf .a s).cnt.setWidth 32
  | .bCtrl, s => flagWord (genOf .b s).en
  | .bPeriod, s => (genOf .b s).period.setWidth 32
  | .bDuty, s => (genOf .b s).shd.setWidth 32
  | .bDutyact, s => (genOf .b s).act.setWidth 32
  | .bCount, s => (genOf .b s).cnt.setWidth 32
  | .tctrl, s => flagWord s.timer.en
  | .treload, s => s.timer.n.setWidth 32
  | .tcount, s => s.timer.tcnt.setWidth 32
  | .errstat, s => errstatWord s.err
  | .errdata, s => s.err.data

end Sys2Proof.Machine
end

