-- ==== Sys2Proof/Machine/Ops.lean ====
section
/-! DEFINITION. The named operations over the state: the response of a transaction, the bus error
(this block's only exception, with no return: 60_exceptions.md R180, R189, R190), DutyWrite, the
counters of phase 2, the ramp engine, reset, and the inputs of a cycle. -/

namespace Sys2Proof.Machine

/-- The outcome of an operation. -/
abbrev Result := Host.Outcome State Fault Refusal

/-- Replace the generator an index names. -/
def setGen (g : GenId) (x : Generator) (s : State) : State :=
  match g with
  | .a => { s with genA := x }
  | .b => { s with genB := x }

/-- RESP = OKAY with an RDATA (0 for a write and for an idle cycle) (70_reset_and_hazards.md R215). -/
def respondOkay (v : Word) (s : State) : State :=
  { s with out := { s.out with resp := .okay, rdata := v } }

/-- RESP = ERROR, RDATA = 0 (60_exceptions.md R180). -/
def respondError (s : State) : State :=
  { s with out := { s.out with resp := .error, rdata := 0#32 } }

/-- ErrorCapture (43_error_status.md R170). -/
def errorCapture (code : ErrCode) (rq : Request) (e : ErrorStatus) : ErrorStatus :=
  { code := if e.code = 0#4 then errCodeNum code else e.code
    req := if e.code = 0#4 then rq.req else e.req
    data := if e.code = 0#4 then (if reqWe rq.req then rq.wdata else 0#32) else e.data
    count := if e.count = 255#8 then 255#8 else e.count + 1#8 }

/-- raise BusError(code, REQ, WDATA) (60_exceptions.md R180): the error response and ErrorCapture,
and no other change. -/
def busError (code : ErrCode) (rq : Request) (s : State) : State :=
  respondError { s with err := errorCapture code rq s.err }

/-- A read: RDATA is the register's word, and the state is as it was (20_memory.md R65). -/
def performRead (r : Reg) (s : State) : Result := .next (respondOkay (regRead r s) s)

/-- A write of a register: its rule's result, or the bus error the rule raises
(70_reset_and_hazards.md R215, Perform). -/
def performWrite (r : Reg) (w : Word) (rule : Word → State → Except ErrCode State)
    (s : State) : Result :=
  match rule w s with
  | .ok t => .next (respondOkay 0#32 t)
  | .error code => .next (busError code ⟨writeWord r, w⟩ s)

/-- DutyWrite(g, v) on a generator (41_pwm_generator.md R115). -/
def dutyWrite (v : Word) (g : Generator) : Generator :=
  { g with
    shd := clampDuty v g.period
    act := if g.en then g.act else clampDuty v g.period }

/-- The prescaler's count in phase 2 (40_clock_config.md R103). -/
def countClock (c : Clock) : Clock :=
  if c.diven then { c with psc := if pscAtEnd c then 0#16 else c.psc + 1#16 } else c

/-- period_boundary(g) (41_pwm_generator.md R123). -/
def periodBoundary (g : Generator) : Generator :=
  { g with cnt := g.period - 1#16, act := g.shd }

/-- A generator's count in phase 2, on the cycle's PWM tick (41_pwm_generator.md R121). -/
def countGenerator (tick : Bool) (g : Generator) : Generator :=
  if g.en && tick then
    if g.cnt = 0#16 then periodBoundary g else { g with cnt := g.cnt - 1#16 }
  else g

/-- The timer's count in phase 2 (42_timer_ramp.md R145). -/
def countTimer (t : Timer) : Timer :=
  if t.en then { t with tcnt := if t.tcnt = 0#24 then t.n - 1#24 else t.tcnt - 1#24 } else t

/-- Phase 2 of the cycle step, on events sampled from the same state (70_reset_and_hazards.md R215),
and the response lines cleared at the head of phase 3. -/
def countersPhase (s : State) : State :=
  respondOkay 0#32
    { s with
      clk := countClock s.clk
      genA := countGenerator (pwmTick s.clk) s.genA
      genB := countGenerator (pwmTick s.clk) s.genB
      timer := countTimer s.timer }

/-- Step 2 of the ramp with direction = UP (42_timer_ramp.md R152). -/
def rampUp (cmp : WrapCmp) (r : Ramp) : Ramp :=
  { r with duty := if rampWraps cmp (r.duty + Config.rampStep) then 0#32 else r.duty + Config.rampStep }

/-- Step 2 of the ramp with direction = DOWN (42_timer_ramp.md R153). -/
def rampDown (r : Ramp) : Ramp :=
  if 0#32 < r.duty then { r with duty := r.duty - Config.rampStep } else { r with direction := .up }

/-- Steps 1 and 2 of the ramp engine (42_timer_ramp.md R151 to R153). -/
def rampAdvance (cmp : WrapCmp) (r : Ramp) : Ramp :=
  let r1 := { r with elapsedMs := r.elapsedMs + 1#32 }
  if rampSteps r1.elapsedMs then
    match r1.direction with
    | .up => rampUp cmp r1
    | .down => rampDown r1
  else r1

/-- RampStep: steps 1 to 3, as one atomic action (42_timer_ramp.md R155). -/
def rampStep (s : State) : State :=
  let r := rampAdvance s.params.wrapCmp s.ramp
  { s with
    ramp := r
    genA := if rampWrites s.params.writePolicy (rampSteps r.elapsedMs) then dutyWrite r.duty s.genA
      else s.genA }

/-- The ramp engine's part of phase 3: RampStep when the cycle has a timer tick
(70_reset_and_hazards.md R215). -/
def rampPhase (tick : Bool) (s : State) : State := if tick then rampStep s else s

/-- The end of the cycle: the output levels of S_{n+1} (41_pwm_generator.md R125). -/
def driveOutputs (s : State) : State :=
  { s with out := { s.out with pwmA := outLevel s.genA, pwmB := outLevel s.genB } }

/-- A cycle with RST high: every piece of the block's state takes its reset value
(70_reset_and_hazards.md R210). The model's own fields are not the block's and stay. -/
def resetBlock (s : State) : State :=
  { State.reset with params := s.params, inputs := s.inputs, drawn := s.drawn }

/-- The inputs of the coming cycle: the oldest decided ones, else the environment's next draw. -/
def cycleInput (s : State) : CycleInput :=
  match s.inputs with
  | i :: _ => i
  | [] => Config.cycleDraw s.drawn

/-- The inputs of this cycle are spent: the next cycle takes the next ones. -/
def spendInput (s : State) : State :=
  match s.inputs with
  | _ :: rest => { s with inputs := rest }
  | [] => { s with drawn := s.drawn + 1 }

/-- Decide the next cycle's inputs, ahead of those already decided. -/
def decideInput (i : CycleInput) (s : State) : State := { s with inputs := i :: s.inputs }

/-- Apply a change to the next state of an outcome. -/
def onNext (f : State → State) : Result → Result
  | .next s => .next (f s)
  | .fault r => .fault r
  | .refused r => .refused r

end Sys2Proof.Machine
end

