-- ==== Sys2Proof/Machine/Clocking.lean ====
section
/-! DEFINITION. The Clock Configurator's operations (40_clock_config.md R100, R101). -/

namespace Sys2Proof.Machine

/-- The write rule of CLKCFG (40_clock_config.md R101). -/
def writeClkcfg (w : Word) (s : State) : Except ErrCode State :=
  if enField w = s.clk.diven ∧ divlog2Field w = s.clk.divlog2 then .ok s
  else if s.genA.en || s.genB.en then .error .locked
  else .ok { s with clk := { diven := enField w, divlog2 := divlog2Field w, psc := 0#16 } }

/-- RD.CLKCFG (40_clock_config.md R100). -/
def execRdClkcfg (s : State) : Result := performRead .clkcfg s

/-- WR.CLKCFG (40_clock_config.md R101). -/
def execWrClkcfg (w : Word) (s : State) : Result := performWrite .clkcfg w writeClkcfg s

end Sys2Proof.Machine
end

