-- ==== Sys2Proof/Machine/ErrorUnit.lean ====
section
/-! DEFINITION. The operations on the error-status unit (43_error_status.md R171, R172). -/

namespace Sys2Proof.Machine

/-- RD.ERRSTAT (43_error_status.md R171). -/
def execRdErrstat (s : State) : Result := performRead .errstat s

/-- RD.ERRDATA (43_error_status.md R172). -/
def execRdErrdata (s : State) : Result := performRead .errdata s

end Sys2Proof.Machine
end

