-- ==== Sys2Proof/Machine/Generators.lean ====
section
/-! DEFINITION. The operations on PWM generators A and B (41_pwm_generator.md R111 to R119): each
write rule once, for the generator its operation names. -/

namespace Sys2Proof.Machine

/-- The write rule of g_CTRL (41_pwm_generator.md R118). -/
def writeCtrl (g : GenId) (w : Word) (s : State) : Except ErrCode State :=
  let x := genOf g s
  match x.en, enField w with
  | true, false => .error .locked
  | false, true =>
    if s.clk.diven = false ∨ x.period = 0#16 then .error .state
    else .ok (setGen g { x with en := true, cnt := x.period - 1#16, act := x.shd } s)
  | true, true => .ok s
  | false, false => .ok s

/-- The write rule of g_PERIOD (41_pwm_generator.md R116). -/
def writePeriod (g : GenId) (w : Word) (s : State) : Except ErrCode State :=
  let x := genOf g s
  if x.en then
    if w = x.period.setWidth 32 then .ok s else .error .locked
  else if w = 0#32 ∨ 0xFFFF#32 < w then .error .range
  else
    let period : Count16 := w.setWidth 16
    let shd := if x.shd ≤ period then x.shd else period
    .ok (setGen g { x with period := period, shd := shd, act := shd } s)

/-- The write rule of g_DUTY (41_pwm_generator.md R117). -/
def writeDuty (g : GenId) (w : Word) (s : State) : Except ErrCode State :=
  let x := genOf g s
  if x.period = 0#16 then .error .state else .ok (setGen g (dutyWrite w x) s)

/-- RD.A_CTRL (41_pwm_generator.md R111). -/
def execRdACtrl (s : State) : Result := performRead .aCtrl s

/-- WR.A_CTRL (41_pwm_generator.md R118). -/
def execWrACtrl (w : Word) (s : State) : Result := performWrite .aCtrl w (writeCtrl .a) s

/-- RD.A_PERIOD (41_pwm_generator.md R112). -/
def execRdAPeriod (s : State) : Result := performRead .aPeriod s

/-- WR.A_PERIOD (41_pwm_generator.md R116). -/
def execWrAPeriod (w : Word) (s : State) : Result := performWrite .aPeriod w (writePeriod .a) s

/-- RD.A_DUTY (41_pwm_generator.md R113). -/
def execRdADuty (s : State) : Result := performRead .aDuty s

/-- WR.A_DUTY (41_pwm_generator.md R117). -/
def execWrADuty (w : Word) (s : State) : Result := performWrite .aDuty w (writeDuty .a) s

/-- RD.A_DUTYACT (41_pwm_generator.md R114). -/
def execRdADutyact (s : State) : Result := performRead .aDutyact s

/-- RD.A_COUNT (41_pwm_generator.md R119). -/
def execRdACount (s : State) : Result := performRead .aCount s

/-- RD.B_CTRL (41_pwm_generator.md R111). -/
def execRdBCtrl (s : State) : Result := performRead .bCtrl s

/-- WR.B_CTRL (41_pwm_generator.md R118). -/
def execWrBCtrl (w : Word) (s : State) : Result := performWrite .bCtrl w (writeCtrl .b) s

/-- RD.B_PERIOD (41_pwm_generator.md R112). -/
def execRdBPeriod (s : State) : Result := performRead .bPeriod s

/-- WR.B_PERIOD (41_pwm_generator.md R116). -/
def execWrBPeriod (w : Word) (s : State) : Result := performWrite .bPeriod w (writePeriod .b) s

/-- RD.B_DUTY (41_pwm_generator.md R113). -/
def execRdBDuty (s : State) : Result := performRead .bDuty s

/-- WR.B_DUTY (41_pwm_generator.md R117). -/
def execWrBDuty (w : Word) (s : State) : Result := performWrite .bDuty w (writeDuty .b) s

/-- RD.B_DUTYACT (41_pwm_generator.md R114). -/
def execRdBDutyact (s : State) : Result := performRead .bDutyact s

/-- RD.B_COUNT (41_pwm_generator.md R119). -/
def execRdBCount (s : State) : Result := performRead .bCount s

end Sys2Proof.Machine
end

