-- ==== Sys2Proof/Machine/PeriodicTimer.lean ====
section
/-! DEFINITION. The operations on the periodic timer (42_timer_ramp.md R140 to R144). -/

namespace Sys2Proof.Machine

/-- The write rule of TCTRL (42_timer_ramp.md R141). -/
def writeTctrl (w : Word) (s : State) : Except ErrCode State :=
  match s.timer.en, enField w with
  | false, true =>
    if s.genA.en = false ∨ s.timer.n = 0#24 then .error .state
    else .ok { s with timer := { s.timer with en := true, tcnt := s.timer.n - 1#24 } }
  | true, false => .ok { s with timer := { s.timer with en := false } }
  | true, true => .ok s
  | false, false => .ok s

/-- The write rule of TRELOAD (42_timer_ramp.md R142). -/
def writeTreload (w : Word) (s : State) : Except ErrCode State :=
  if s.timer.en then
    if w = s.timer.n.setWidth 32 then .ok s else .error .locked
  else if w = 0#32 ∨ 0xFFFFFF#32 < w then .error .range
  else .ok { s with timer := { s.timer with n := w.setWidth 24 } }

/-- RD.TCTRL (42_timer_ramp.md R140). -/
def execRdTctrl (s : State) : Result := performRead .tctrl s

/-- WR.TCTRL (42_timer_ramp.md R141). -/
def execWrTctrl (w : Word) (s : State) : Result := performWrite .tctrl w writeTctrl s

/-- RD.TRELOAD (42_timer_ramp.md R143). -/
def execRdTreload (s : State) : Result := performRead .treload s

/-- WR.TRELOAD (42_timer_ramp.md R142). -/
def execWrTreload (w : Word) (s : State) : Result := performWrite .treload w writeTreload s

/-- RD.TCOUNT (42_timer_ramp.md R144). -/
def execRdTcount (s : State) : Result := performRead .tcount s

end Sys2Proof.Machine
end

