-- ==== Sys2Proof/Machine/Dispatch.lean ====
section
/-! DEFINITION. One arm per constructor of Instr. -/

namespace Sys2Proof.Machine

def exec (i : Instr) (s : State) : Host.Outcome State Fault Refusal :=
  match i with
  | .rdClkcfg => Sys2Proof.Machine.execRdClkcfg s
  | .wrClkcfg w => Sys2Proof.Machine.execWrClkcfg w s
  | .rdACtrl => Sys2Proof.Machine.execRdACtrl s
  | .wrACtrl w => Sys2Proof.Machine.execWrACtrl w s
  | .rdAPeriod => Sys2Proof.Machine.execRdAPeriod s
  | .wrAPeriod w => Sys2Proof.Machine.execWrAPeriod w s
  | .rdADuty => Sys2Proof.Machine.execRdADuty s
  | .wrADuty w => Sys2Proof.Machine.execWrADuty w s
  | .rdADutyact => Sys2Proof.Machine.execRdADutyact s
  | .rdACount => Sys2Proof.Machine.execRdACount s
  | .rdBCtrl => Sys2Proof.Machine.execRdBCtrl s
  | .wrBCtrl w => Sys2Proof.Machine.execWrBCtrl w s
  | .rdBPeriod => Sys2Proof.Machine.execRdBPeriod s
  | .wrBPeriod w => Sys2Proof.Machine.execWrBPeriod w s
  | .rdBDuty => Sys2Proof.Machine.execRdBDuty s
  | .wrBDuty w => Sys2Proof.Machine.execWrBDuty w s
  | .rdBDutyact => Sys2Proof.Machine.execRdBDutyact s
  | .rdBCount => Sys2Proof.Machine.execRdBCount s
  | .rdTctrl => Sys2Proof.Machine.execRdTctrl s
  | .wrTctrl w => Sys2Proof.Machine.execWrTctrl w s
  | .rdTreload => Sys2Proof.Machine.execRdTreload s
  | .wrTreload w => Sys2Proof.Machine.execWrTreload w s
  | .rdTcount => Sys2Proof.Machine.execRdTcount s
  | .rdErrstat => Sys2Proof.Machine.execRdErrstat s
  | .rdErrdata => Sys2Proof.Machine.execRdErrdata s

end Sys2Proof.Machine
end

