-- ==== Sys2Proof/Machine/Cycle.lean ====
section
/-! DEFINITION. The cycle step (70_reset_and_hazards.md R215): the whole behaviour of the block in one
f_sys cycle. -/

namespace Sys2Proof.Machine

/-- Perform(req_n) (70_reset_and_hazards.md R215): nothing in a cycle without a transaction, the
decode error's response, or the operation's own rule. -/
def perform (req : Option Request) (s : State) : Result :=
  match req with
  | none => .next s
  | some rq =>
    match decode rq.req rq.wdata with
    | .error code => .next (busError code rq s)
    | .op i => exec i s

/-- Phase 3: the host transaction and the ramp step, in the order ord_n
(70_reset_and_hazards.md R215, R216). -/
def accessPhase (order : Order) (tick : Bool) (req : Option Request) (s : State) : Result :=
  match order with
  | .busFirst => onNext (rampPhase tick) (perform req s)
  | .rampFirst => perform req (rampPhase tick s)

/-- A cycle with RST low, on the inputs i (70_reset_and_hazards.md R215). -/
def runCycle (i : CycleInput) (s : State) : Result :=
  onNext driveOutputs (accessPhase i.order (timerTick s.timer) i.request (countersPhase s))

/-- Cycle(S_n, RST, req_n, ord_n) (70_reset_and_hazards.md R215, R210). -/
def cycle (i : CycleInput) (s : State) : Result :=
  if i.rst then .next (resetBlock s) else runCycle i s

/-- One cycle on the inputs the state names, which are then spent. -/
def stepCycle (s : State) : Result := cycle (cycleInput s) (spendInput s)

/-- The transaction whose bits are w, as the inputs of a cycle: RST low. BUS_FIRST is a choice that no
cycle without a timer tick can show (log entry 9). -/
def placedInput (nbits w : Nat) : CycleInput :=
  { rst := false, request := some (requestOfBits nbits w), order := .busFirst }

end Sys2Proof.Machine
end

