-- ==== Sys2Proof/Machine/Step.lean ====
section
/-! DEFINITION. The machine's step: one f_sys cycle (00_scope.md R11). -/

namespace Sys2Proof.Machine

/-- One f_sys cycle, from S_n to S_{n+1} (70_reset_and_hazards.md R215). -/
def step (s : State) : Host.Outcome State Fault Refusal := stepCycle s

/-- The state with the transaction whose bits are w decided for the very next cycle. -/
def State.withFetchWord (s : State) (nbits w : Nat) : State := decideInput (placedInput nbits w) s

end Sys2Proof.Machine
end

