-- ==== Sys2Proof/Machine/Driver.lean ====
section
/-! DEFINITION. The host's side of the interface, as far as the spec states it: what the lines and
pseudo-instructions of the transaction syntax present to the block (30_encoding.md R90, R91, R93), the
bus addresses of the window, and the two pieces of host software whose writes the spec lists
(60_exceptions.md R199, R200). No step of the block calls anything of this file. -/

namespace Sys2Proof.Machine

/-- The bus address of a register: its offset from PWMBLK_BASE (10_state.md R24, 60_exceptions.md
R194). -/
def busAddress (r : Reg) : BitVec 32 := Config.pwmblkBase + (regOffset r).setWidth 32

/-- g_CTRL of a generator (10_state.md R25). -/
def ctrlReg : GenId → Reg
  | .a => .aCtrl
  | .b => .bCtrl

/-- g_PERIOD of a generator (10_state.md R25). -/
def periodReg : GenId → Reg
  | .a => .aPeriod
  | .b => .bPeriod

/-- g_DUTY of a generator (10_state.md R25). -/
def dutyReg : GenId → Reg
  | .a => .aDuty
  | .b => .bDuty

/-- The request of a read of a register (30_encoding.md R87). -/
def readRequest (r : Reg) : Request := ⟨readWord r, 0#32⟩

/-- The request of a write of a register; of an RO register too, which the block answers with
E_READONLY (30_encoding.md R88). -/
def writeRequest (r : Reg) (value : Nat) : Request := ⟨writeWord r, BitVec.ofNat 32 value⟩

/-- What a line presents, one entry per cycle (30_encoding.md R90). -/
def lineRequests : Line → List (Option Request)
  | .rd r => [some (readRequest r)]
  | .wr r value => [some (writeRequest r value)]
  | .raw word data => [some ⟨BitVec.ofNat 16 word, BitVec.ofNat 32 (data.getD 0)⟩]
  | .idle n => List.replicate n none

/-- The lines of PWM_INIT (30_encoding.md R91). -/
def pwmInitLines (g : GenId) (period duty : Nat) : List Line :=
  [.wr (periodReg g) period, .wr (dutyReg g) duty, .wr (ctrlReg g) 1]

/-- The lines of TIMER_INIT (30_encoding.md R91). -/
def timerInitLines (n : Nat) : List Line := [.wr .treload n, .wr .tctrl 1]

/-- The lines of CLK_INIT (30_encoding.md R91). -/
def clkInitLines : List Line := [.wr .clkcfg Config.clkcfgInit]

/-- The expansion of a pseudo-instruction (30_encoding.md R91). -/
def expand : Pseudo → List Line
  | .clkInit => clkInitLines
  | .pwmInit g period duty => pwmInitLines g period duty
  | .setDuty g duty => [.wr (dutyReg g) duty]
  | .timerInit n => timerInitLines n
  | .timerStop => [.wr .tctrl 0]
  | .delayMs n => [.idle (n * Config.treload1kHz)]
  | .bringup =>
    clkInitLines ++ pwmInitLines .a Config.period50Hz Config.dutyAInit
      ++ pwmInitLines .b Config.period50Hz Config.dutyBInit ++ timerInitLines Config.treload1kHz

/-- The inputs of the cycles of a program, one line a cycle from cycle 0 (30_encoding.md R90), RST low,
with the draws ord_n given one per cycle (00_scope.md R12). -/
def programInputs (orders : List Order) (lines : List Line) : List CycleInput :=
  List.zipWith (fun req order => { rst := false, request := req, order := order })
    (lines.flatMap lineRequests) orders

/-- The duties of the foreground loop, in its order (60_exceptions.md R199). -/
def foregroundDuties : List Nat := [3125, 18750, 59375]

/-- One round of the foreground loop (60_exceptions.md R199): each duty, then DELAY_MS 2000. -/
def foregroundRound : List Line :=
  foregroundDuties.flatMap (fun d => expand (.setDuty .a d) ++ expand (.delayMs 2000))

/-- The mapped bits of the button status and the duty each selects, lowest bit first
(60_exceptions.md R200). -/
def buttonTable : List (Nat × Nat) := [(2, 1875), (3, 3125), (4, 5000), (5, 7187)]

/-- The B_DUTY value a dispatch writes for a status, if any (60_exceptions.md R200): one mapped bit
selects its value, none writes nothing, several are settled by BTN_POLICY. -/
def buttonDispatch (policy : BtnPolicy) (status : Word) : Option Nat :=
  match (buttonTable.filter (fun p => status.getLsbD p.1)).map Prod.snd with
  | [] => none
  | [duty] => some duty
  | duty :: _ :: _ =>
    match policy with
    | .lowestBitWins => some duty
    | .singleBitOnly => none

end Sys2Proof.Machine
end

