-- ==== Sys2Proof/Safety.lean ====
section
/-! DEFINITION. What counts as a safe run, in the terms claims use: the invariants of 10_state.md R46
and R47 and 40_clock_config.md R103, the shape of the error record, "no fault recorded"
(60_exceptions.md R201), and the host's contract (R198 to R200) as predicates on a cycle's inputs. -/

namespace Sys2Proof.Machine

/-- The prescaler is inside its range: psc < D (40_clock_config.md R103). -/
abbrev ClockInv (c : Clock) : Prop := c.psc.toNat < divisor c

/-- 10_state.md R46 for one generator, under the block's clock. -/
abbrev GeneratorInv (c : Clock) (g : Generator) : Prop :=
  g.shd.toNat ≤ g.period.toNat ∧ g.act.toNat ≤ g.period.toNat ∧
    (g.en = true → 1 ≤ g.period.toNat ∧ g.cnt.toNat ≤ g.period.toNat - 1 ∧ c.diven = true)

/-- 10_state.md R46 for the timer, with the range of TCNT from R34. -/
abbrev TimerInv (a : Generator) (t : Timer) : Prop :=
  t.en = true → a.en = true ∧ 1 ≤ t.n.toNat ∧ t.tcnt.toNat ≤ t.n.toNat - 1

/-- The invariant of the block's registers and counters (10_state.md R46, R34; 40_clock_config.md
R103). -/
abbrev BlockInv (s : State) : Prop :=
  ClockInv s.clk ∧ GeneratorInv s.clk s.genA ∧ GeneratorInv s.clk s.genB ∧ TimerInv s.genA s.timer

/-- The ramp's invariant from reset (10_state.md R47): a multiple of 50 up to the largest value its
wrap comparison leaves, and direction UP. -/
abbrev RampInv (cmp : WrapCmp) (r : Ramp) : Prop :=
  r.duty.toNat % 50 = 0 ∧
    r.duty.toNat ≤ (match cmp with | .ge => 56200 | .gt => 56250) ∧ r.direction = .up

/-- The shape of the error record (60_exceptions.md R181, 43_error_status.md R170): codes 8 to 15 never
occur, a record with no code is all zero, one with a code counts at least one error, and a recorded
read has data 0. -/
abbrev ErrorInv (e : ErrorStatus) : Prop :=
  e.code.toNat ≤ 7 ∧ (e.code = 0#4 → e.count = 0#8 ∧ e.req = 0#16 ∧ e.data = 0#32) ∧
    (e.code ≠ 0#4 → 1 ≤ e.count.toNat) ∧ (reqWe e.req = false → e.data = 0#32)

/-- "No fault recorded" (60_exceptions.md R201). -/
abbrev NoFault (s : State) : Prop := s.err.code = 0#4

/-- H-5, H-6 and H-7 of 60_exceptions.md R198, for a request after bring-up: reads of registers, the
foreground loop's writes of A_DUTY (R199), a preset write of B_DUTY (R200), and no other write. -/
def contractRequest (rq : Request) : Bool :=
  match decode rq.req rq.wdata with
  | .op (.wrADuty w) => foregroundDuties.contains w.toNat
  | .op (.wrBDuty w) => (buttonTable.map Prod.snd).contains w.toNat
  | .op i => !isWrite i
  | .error _ => false

/-- The inputs of a cycle that a host within its contract may present after bring-up. -/
def contractInput (i : CycleInput) : Bool := !i.rst && i.request.all contractRequest

/-- The block after bring-up (70_reset_and_hazards.md R213) and under the host's contract
(60_exceptions.md R198): both generators run with the product period, the timer runs, B holds preset
duties, and no fault is recorded. -/
abbrev ProductRun (s : State) : Prop :=
  BlockInv s ∧ NoFault s ∧ s.genA.en = true ∧ s.genB.en = true ∧ s.timer.en = true ∧
    s.genA.period = 62500#16 ∧ s.genB.period = 62500#16 ∧
    s.genB.shd.toNat ∈ buttonTable.map Prod.snd ∧ s.genB.act.toNat ∈ buttonTable.map Prod.snd

/-- Cycles to a generator's next period boundary, counted from the state before them: the boundary
falls in the cycle that starts with 0 left (41_pwm_generator.md R121 to R123). -/
def cyclesToBoundary (c : Clock) (g : Generator) : Nat :=
  g.cnt.toNat * divisor c + (divisor c - 1 - c.psc.toNat)

end Sys2Proof.Machine
end

