-- ==== Sys2Proof/WellFormed.lean ====
section
/-! DEFINITION. Which terms of the syntax are instructions, lines and pseudo-instructions of the
spec: the bounds of literals of 30_encoding.md R90 and R91. -/

namespace Sys2Proof

/-- Every term of `Instr` is well formed: a constructor is one row of the map and its operand has
exactly the 32 bits of WDATA (30_encoding.md R84), every value of which is an operand. -/
def Instr.wellFormed : Instr → Bool
  | .rdClkcfg | .rdACtrl | .rdAPeriod | .rdADuty | .rdADutyact | .rdACount => true
  | .rdBCtrl | .rdBPeriod | .rdBDuty | .rdBDutyact | .rdBCount => true
  | .rdTctrl | .rdTreload | .rdTcount | .rdErrstat | .rdErrdata => true
  | .wrClkcfg _ | .wrACtrl _ | .wrAPeriod _ | .wrADuty _ => true
  | .wrBCtrl _ | .wrBPeriod _ | .wrBDuty _ => true
  | .wrTctrl _ | .wrTreload _ => true

/-- 30_encoding.md R90: a value is a literal of at most 32 bits, a raw request word has 16 bits, and
IDLE takes n ≥ 1 cycles. -/
def Line.wellFormed : Line → Bool
  | .rd _ => true
  | .wr _ value => decide (value < 2 ^ 32)
  | .raw word data => decide (word < 2 ^ 16) && data.all (fun d => decide (d < 2 ^ 32))
  | .idle n => decide (1 ≤ n)

/-- 30_encoding.md R91: the operands are values of the lines they expand to; DELAY_MS n expands to
IDLE n × 50000, so n ≥ 1. -/
def Pseudo.wellFormed : Pseudo → Bool
  | .clkInit | .timerStop | .bringup => true
  | .pwmInit _ period duty => decide (period < 2 ^ 32) && decide (duty < 2 ^ 32)
  | .setDuty _ duty => decide (duty < 2 ^ 32)
  | .timerInit n => decide (n < 2 ^ 32)
  | .delayMs n => decide (1 ≤ n)

end Sys2Proof
end

