-- ==== Sys2Proof/Certificates/Slice0/Obligations.lean ====
section
/-! DEFINITION. The statements for the provers. Each docstring says which rule of spec/ it formalises.
"A cycle with RST low" is a step whose inputs, decided or drawn, have rst = false. -/

open Sys2Proof Sys2Proof.Machine

/-! ## Encoding and decoding -/

/-- 30_encoding.md R87: the 25 request words of the map, each written as a number, decode to their
operations, a write with its whole WDATA. -/
def Obligations.RequestWordsDecode : Prop :=
  ∀ w : Word,
    (decode 0x4000 w = .op .rdClkcfg ∧ decode 0xC000 w = .op (.wrClkcfg w) ∧
      decode 0x4040 w = .op .rdACtrl ∧ decode 0xC040 w = .op (.wrACtrl w) ∧
      decode 0x4044 w = .op .rdAPeriod ∧ decode 0xC044 w = .op (.wrAPeriod w) ∧
      decode 0x4048 w = .op .rdADuty ∧ decode 0xC048 w = .op (.wrADuty w) ∧
      decode 0x404C w = .op .rdADutyact ∧ decode 0x4050 w = .op .rdACount) ∧
    (decode 0x4080 w = .op .rdBCtrl ∧ decode 0xC080 w = .op (.wrBCtrl w) ∧
      decode 0x4084 w = .op .rdBPeriod ∧ decode 0xC084 w = .op (.wrBPeriod w) ∧
      decode 0x4088 w = .op .rdBDuty ∧ decode 0xC088 w = .op (.wrBDuty w) ∧
      decode 0x408C w = .op .rdBDutyact ∧ decode 0x4090 w = .op .rdBCount) ∧
    (decode 0x4100 w = .op .rdTctrl ∧ decode 0xC100 w = .op (.wrTctrl w) ∧
      decode 0x4104 w = .op .rdTreload ∧ decode 0xC104 w = .op (.wrTreload w) ∧
      decode 0x4108 w = .op .rdTcount ∧
      decode 0x41F0 w = .op .rdErrstat ∧ decode 0x41F4 w = .op .rdErrdata)

/-- 30_encoding.md R86, R87: decode and encode agree. Every operation is read back from its
transaction with its whole operand, and a request word decodes to an operation only if it is that
operation's word (mask 0xFFFF) with, for a write, that operation's WDATA. -/
def Obligations.DecodeAndEncodeAgree : Prop :=
  (∀ i : Instr, i.wellFormed = true → decode (encode i).req (encode i).wdata = .op i) ∧
    ∀ (q : ReqWord) (w : Word) (i : Instr),
      decode q w = .op i ↔ q = (encode i).req ∧ (isWrite i = true → (encode i).wdata = w)

/-- 30_encoding.md R86, R88: which request words are illegal, and the error of each, by the numbers of
the fields of R82 (SIZE = bits 14:13, X = bit 12, OFFSET = bits 11:0). -/
def Obligations.IllegalRequestsByField : Prop :=
  ∀ (q : ReqWord) (w : Word),
    (decode q w = .error .width ↔ q.toNat / 8192 % 4 ≠ 2) ∧
    (decode q w = .error .align ↔ q.toNat / 8192 % 4 = 2 ∧ q.toNat % 4 ≠ 0) ∧
    (decode q w = .error .unmapped ↔
      q.toNat / 8192 % 4 = 2 ∧ q.toNat % 4 = 0 ∧
        (q.toNat / 4096 % 2 = 1 ∨
          q.toNat % 4096 ∉ [0x000, 0x040, 0x044, 0x048, 0x04C, 0x050, 0x080, 0x084, 0x088, 0x08C,
            0x090, 0x100, 0x104, 0x108, 0x1F0, 0x1F4])) ∧
    (decode q w = .error .readOnly ↔
      q.toNat ∈ [0xC04C, 0xC050, 0xC08C, 0xC090, 0xC108, 0xC1F0, 0xC1F4]) ∧
    (∀ code, decode q w = .error code →
      code = .width ∨ code = .align ∨ code = .unmapped ∨ code = .readOnly)

/-! ## The step -/

/-- 70_reset_and_hazards.md R215: in a cycle with RST low whose request decodes to i, the step is
`exec i` in phase 3, on the state after phase 2, with the ramp step after it (BUS_FIRST) or before it
(RAMP_FIRST) when the cycle has a timer tick, and then the output levels. -/
def Obligations.StepRunsDecodedInstruction : Prop :=
  ∀ (s : State) (rq : Request) (order : Order) (i : Instr),
    cycleInput s = { rst := false, request := some rq, order := order } →
    decode rq.req rq.wdata = .op i →
    step s =
      match order with
      | .busFirst =>
        onNext (fun t => driveOutputs (rampPhase (timerTick s.timer) t))
          (exec i (countersPhase (spendInput s)))
      | .rampFirst =>
        onNext driveOutputs (exec i (rampPhase (timerTick s.timer) (countersPhase (spendInput s))))

/-- 30_encoding.md R86, R88, 60_exceptions.md R180: in a cycle with RST low whose request decodes to an
error, whatever ord_n, the step answers the state of the same cycle without the transaction, with the
error of the decode captured in the record, RESP = ERROR and RDATA = 0. -/
def Obligations.IllegalRequestAnswersItsError : Prop :=
  ∀ (s : State) (rq : Request) (order : Order) (code : ErrCode),
    cycleInput s = { rst := false, request := some rq, order := order } →
    decode rq.req rq.wdata = .error code →
    ∃ t0 : State,
      cycle { rst := false, request := none, order := order } (spendInput s) = .next t0 ∧
      step s = .next { t0 with
        err := errorCapture code rq s.err
        out := { t0.out with resp := .error, rdata := 0#32 } }

/-- 70_reset_and_hazards.md R210: in a cycle with RST high every piece of state takes its reset value,
no transaction is performed and no event happens. -/
def Obligations.ResetCycleClearsEverything : Prop :=
  ∀ s : State, (cycleInput s).rst = true →
    ∃ t, step s = .next t ∧
      t.clk = { diven := false, divlog2 := 0#4, psc := 0#16 } ∧
      t.genA = { en := false, period := 0#16, shd := 0#16, act := 0#16, cnt := 0#16 } ∧
      t.genB = { en := false, period := 0#16, shd := 0#16, act := 0#16, cnt := 0#16 } ∧
      t.timer = { en := false, n := 0#24, tcnt := 0#24 } ∧
      t.ramp = { elapsedMs := 0#32, duty := 0#32, direction := .up } ∧
      t.err = { code := 0#4, count := 0#8, req := 0#16, data := 0#32 } ∧
      t.out = { resp := .okay, rdata := 0#32, pwmA := false, pwmB := false }

/-- 10_state.md R44: the reset value of every piece of state. -/
def Obligations.ResetValues : Prop :=
  State.reset.clk = { diven := false, divlog2 := 0#4, psc := 0#16 } ∧
    State.reset.genA = { en := false, period := 0#16, shd := 0#16, act := 0#16, cnt := 0#16 } ∧
    State.reset.genB = { en := false, period := 0#16, shd := 0#16, act := 0#16, cnt := 0#16 } ∧
    State.reset.timer = { en := false, n := 0#24, tcnt := 0#24 } ∧
    State.reset.ramp = { elapsedMs := 0#32, duty := 0#32, direction := .up } ∧
    State.reset.err = { code := 0#4, count := 0#8, req := 0#16, data := 0#32 } ∧
    State.reset.out = { resp := .okay, rdata := 0#32, pwmA := false, pwmB := false }

/-- 60_exceptions.md R201: "The block never halts": every step, and every operation in every state,
answers a next state. -/
def Obligations.NothingEverStops : Prop :=
  (∀ s : State, ∃ t, step s = .next t) ∧ ∀ (i : Instr) (s : State), ∃ t, exec i s = .next t

/-- The model's own fields (log entries 1 to 3): a step spends exactly the oldest decided inputs, or
draws from the environment when none are decided, and never changes the parameters. -/
def Obligations.StepSpendsItsInputs : Prop :=
  ∀ s t : State, step s = .next t →
    t.params = s.params ∧
      (s.inputs = [] → t.inputs = [] ∧ t.drawn = s.drawn + 1) ∧
      (∀ i rest, s.inputs = i :: rest → t.inputs = rest ∧ t.drawn = s.drawn)

/-! ## The clock, the counters and the outputs -/

/-- 40_clock_config.md R103: in a cycle with RST low that performs no WR.CLKCFG, the prescaler counts
modulo D while DIVEN = 1 and holds while DIVEN = 0, and the divider's fields do not change. -/
def Obligations.PrescalerCountsModuloD : Prop :=
  ∀ s t : State, (cycleInput s).rst = false →
    (∀ rq, (cycleInput s).request = some rq → rq.req ≠ 0xC000#16) →
    step s = .next t →
    t.clk =
      { diven := s.clk.diven
        divlog2 := s.clk.divlog2
        psc := if s.clk.diven = true then
            (if s.clk.psc.toNat = 2 ^ s.clk.divlog2.toNat - 1 then 0#16 else s.clk.psc + 1#16)
          else s.clk.psc }

/-- 41_pwm_generator.md R121, R123: a generator that runs at a cycle's start counts down on the PWM
tick and reloads at the boundary, loading ACT from the SHD of the cycle's start, whatever the host and
the ramp engine do in the cycle; nothing else changes CNT or ACT, and PERIOD and EN stay. -/
def Obligations.RunningGeneratorCounts : Prop :=
  ∀ (g : GenId) (s t : State), (cycleInput s).rst = false → (genOf g s).en = true →
    step s = .next t →
    let tick : Prop := s.clk.diven = true ∧ s.clk.psc.toNat = 2 ^ s.clk.divlog2.toNat - 1
    (tick → (genOf g s).cnt = 0#16 →
      (genOf g t).cnt = (genOf g s).period - 1#16 ∧ (genOf g t).act = (genOf g s).shd) ∧
    (tick → (genOf g s).cnt ≠ 0#16 →
      (genOf g t).cnt = (genOf g s).cnt - 1#16 ∧ (genOf g t).act = (genOf g s).act) ∧
    (¬ tick → (genOf g t).cnt = (genOf g s).cnt ∧ (genOf g t).act = (genOf g s).act) ∧
    (genOf g t).en = true ∧ (genOf g t).period = (genOf g s).period

/-- 41_pwm_generator.md R124: while EN = 0, CNT does not change; without a write of the generator's own
registers and, for A alone, a ramp step, nothing of the generator changes, PWM tick or not, so ticks are
ignored and no boundary happens; and a generator that runs is stopped by nothing but reset, so this
state exists only from reset until the enable. -/
def Obligations.StoppedGeneratorHolds : Prop :=
  ∀ (g : GenId) (s t : State), step s = .next t →
    ((cycleInput s).rst = false → (genOf g s).en = false → (genOf g t).en = false →
      (genOf g t).cnt = (genOf g s).cnt) ∧
    ((cycleInput s).rst = false → (genOf g s).en = false →
      (∀ rq, (cycleInput s).request = some rq → rq.req ≠ writeWord (ctrlReg g) ∧
        rq.req ≠ writeWord (periodReg g) ∧ rq.req ≠ writeWord (dutyReg g)) →
      (g = .a → s.timer.en = false ∨ s.timer.tcnt ≠ 0#24) → genOf g t = genOf g s) ∧
    ((genOf g s).en = true → (genOf g t).en = false → (cycleInput s).rst = true)

/-- 42_timer_ramp.md R145: the timer tick of a cycle, and the timer's count in a cycle with RST low,
both from the state at its start: running, it counts down and reloads N - 1 from 0, whatever the host
writes; stopped, it holds, or the host starts it. -/
def Obligations.TimerCountsSystemCycles : Prop :=
  ∀ s t : State, (cycleInput s).rst = false → step s = .next t →
    (timerTick s.timer = true ↔ s.timer.en = true ∧ s.timer.tcnt = 0#24) ∧
    (s.timer.en = true →
      t.timer.tcnt = (if s.timer.tcnt = 0#24 then s.timer.n - 1#24 else s.timer.tcnt - 1#24) ∧
        t.timer.n = s.timer.n) ∧
    (s.timer.en = false → t.timer.en = false → t.timer.tcnt = s.timer.tcnt) ∧
    (s.timer.en = false → t.timer.en = true →
      t.timer.tcnt = s.timer.n - 1#24 ∧ t.timer.n = s.timer.n ∧ s.timer.n ≠ 0#24 ∧ s.genA.en = true)

/-- 41_pwm_generator.md R125: after every cycle PWM_g is high exactly when g runs and fewer than ACT
PWM ticks have passed since the period began. -/
def Obligations.OutputLevelFollowsState : Prop :=
  ∀ s t : State, step s = .next t →
    (t.out.pwmA = true ↔ t.genA.en = true ∧
      (t.genA.period.toNat : Int) - 1 - (t.genA.cnt.toNat : Int) < (t.genA.act.toNat : Int)) ∧
    (t.out.pwmB = true ↔ t.genB.en = true ∧
      (t.genB.period.toNat : Int) - 1 - (t.genB.cnt.toNat : Int) < (t.genB.act.toNat : Int))

/-- 41_pwm_generator.md R120, R125: over the PERIOD counts of a full period the output is high for
exactly ACT of them. The spec marks the rule formalised here as derived. -/
def Obligations.HighTimeIsActiveDuty : Prop :=
  ∀ g : Generator, g.en = true → g.act.toNat ≤ g.period.toNat →
    ((List.range g.period.toNat).filter
      (fun c => outLevel { g with cnt := BitVec.ofNat 16 c })).length = g.act.toNat

/-- 41_pwm_generator.md R126: for a generator that runs in a state of R46, ACT = 0 gives a low output,
ACT = PERIOD a high one, and a write of the value already in SHD changes nothing. The spec marks the
rule formalised here as derived. -/
def Obligations.ConstantLevelsAtTheBounds : Prop :=
  ∀ (g : GenId) (s : State), GeneratorInv s.clk (genOf g s) → (genOf g s).en = true →
    ((genOf g s).act = 0#16 → outLevel (genOf g s) = false) ∧
    ((genOf g s).act = (genOf g s).period → outLevel (genOf g s) = true) ∧
    exec (dutyRegWrite g ((genOf g s).shd.setWidth 32)) s =
      .next { s with out := { s.out with resp := .okay, rdata := 0#32 } }

/-- 41_pwm_generator.md R120, R122, R123: in a state of R46, the distance in cycles to a running
generator's boundary goes down by one in every cycle with RST low; the cycle that starts with distance
0 is the boundary, which loads ACT from SHD and leaves PERIOD × D - 1 cycles before the next, so every
period after the first lasts exactly PERIOD × D cycles. The spec marks the rule formalised here as
derived. -/
def Obligations.PeriodLastsPeriodTimesD : Prop :=
  ∀ (g : GenId) (s t : State), BlockInv s → (genOf g s).en = true →
    (cycleInput s).rst = false → step s = .next t →
    (cyclesToBoundary s.clk (genOf g s) ≠ 0 →
      cyclesToBoundary t.clk (genOf g t) + 1 = cyclesToBoundary s.clk (genOf g s) ∧
        (genOf g t).act = (genOf g s).act) ∧
    (cyclesToBoundary s.clk (genOf g s) = 0 →
      cyclesToBoundary t.clk (genOf g t) + 1 =
          (genOf g s).period.toNat * 2 ^ s.clk.divlog2.toNat ∧
        (genOf g t).act = (genOf g s).shd)

/-- 41_pwm_generator.md R122: an enable accepted in cycle c leaves a first period of
(PERIOD - 1) × D + k cycles, where k, from 1 to D, is the distance from c to the next PWM tick. The
spec marks the rule formalised here as derived. -/
def Obligations.FirstPeriodAfterEnable : Prop :=
  ∀ (g : GenId) (s : State) (w : Word) (order : Order), BlockInv s →
    cycleInput s = { rst := false, request := some (encode (ctrlWrite g w)), order := order } →
    (genOf g s).en = false → w.getLsbD 0 = true → s.clk.diven = true → (genOf g s).period ≠ 0#16 →
    ∃ (t : State) (k : Nat), step s = .next t ∧ (genOf g t).en = true ∧
      1 ≤ k ∧ k ≤ 2 ^ t.clk.divlog2.toNat ∧ t.clk.psc.toNat + k = 2 ^ t.clk.divlog2.toNat ∧
      cyclesToBoundary t.clk (genOf g t) + 1 =
        ((genOf g s).period.toNat - 1) * 2 ^ s.clk.divlog2.toNat + k

/-- 41_pwm_generator.md R115, 20_memory.md R69: in a cycle with RST low a generator's shadow duty
changes only by a host write of its DUTY or PERIOD, or, for A alone, by a ramp step. -/
def Obligations.ShadowChangesOnlyByDutyWrites : Prop :=
  ∀ (g : GenId) (s t : State), (cycleInput s).rst = false → step s = .next t →
    (∀ rq, (cycleInput s).request = some rq →
      rq.req ≠ writeWord (dutyReg g) ∧ rq.req ≠ writeWord (periodReg g)) →
    (g = .a → s.timer.en = false ∨ s.timer.tcnt ≠ 0#24) →
    (genOf g t).shd = (genOf g s).shd

/-- 60_exceptions.md R188, 70_reset_and_hazards.md R215: in a cycle that has both a boundary of g and a
host write of g_DUTY, and for A no timer tick, the boundary loads the old shadow and the write goes to
the following period. -/
def Obligations.BoundaryLoadsTheOldShadow : Prop :=
  ∀ (g : GenId) (s : State) (w : Word) (order : Order), BlockInv s →
    cycleInput s = { rst := false, request := some (encode (dutyRegWrite g w)), order := order } →
    (genOf g s).en = true → pwmTick s.clk = true → (genOf g s).cnt = 0#16 →
    (g = .a → timerTick s.timer = false) →
    ∃ t, step s = .next t ∧ (genOf g t).act = (genOf g s).shd ∧
      (genOf g t).shd.toNat = min w.toNat (genOf g s).period.toNat ∧
      (genOf g t).cnt = (genOf g s).period - 1#16 ∧ t.out.resp = .okay

/-! ## The ramp engine -/

/-- 42_timer_ramp.md R150, 10_state.md R41: in a cycle with RST low the ramp state takes one RampStep
if the cycle has a timer tick, sampled from its start, and otherwise stays: no transaction reads into
it or writes it. -/
def Obligations.RampAdvancesOnTicksOnly : Prop :=
  ∀ s t : State, (cycleInput s).rst = false → step s = .next t →
    (s.timer.en = true → s.timer.tcnt = 0#24 → t.ramp = rampAdvance s.params.wrapCmp s.ramp) ∧
    (s.timer.en = false ∨ s.timer.tcnt ≠ 0#24 → t.ramp = s.ramp)

/-- 42_timer_ramp.md R151: elapsed_ms is incremented modulo 2^32 on every tick, and the step test is
made after the increment: on a tick that is no step nothing else of the ramp changes. -/
def Obligations.ElapsedCountsTicks : Prop :=
  ∀ (cmp : WrapCmp) (r : Ramp),
    (rampAdvance cmp r).elapsedMs.toNat = (r.elapsedMs.toNat + 1) % 2 ^ 32 ∧
    ((r.elapsedMs.toNat + 1) % 2 ^ 32 % 5 ≠ 0 →
      (rampAdvance cmp r).duty = r.duty ∧ (rampAdvance cmp r).direction = r.direction)

/-- 42_timer_ramp.md R152: the UP branch of a step, for both values of RAMP_WRAP_CMP. -/
def Obligations.RampUpBranch : Prop :=
  ∀ (cmp : WrapCmp) (r : Ramp), (r.elapsedMs.toNat + 1) % 2 ^ 32 % 5 = 0 → r.direction = .up →
    (rampAdvance cmp r).direction = .up ∧
    (rampAdvance cmp r).duty.toNat =
      if (match cmp with
          | .ge => decide (56250 ≤ (r.duty.toNat + 50) % 2 ^ 32)
          | .gt => decide (56250 < (r.duty.toNat + 50) % 2 ^ 32)) = true
      then 0 else (r.duty.toNat + 50) % 2 ^ 32

/-- 42_timer_ramp.md R153: the DOWN branch of a step, the subtraction modulo 2^32; and no step enters
DOWN from UP. -/
def Obligations.RampDownBranch : Prop :=
  (∀ (cmp : WrapCmp) (r : Ramp), (r.elapsedMs.toNat + 1) % 2 ^ 32 % 5 = 0 → r.direction = .down →
    (0 < r.duty.toNat → (rampAdvance cmp r).direction = .down ∧
      (rampAdvance cmp r).duty.toNat = (r.duty.toNat + (2 ^ 32 - 50)) % 2 ^ 32) ∧
    (r.duty.toNat = 0 → (rampAdvance cmp r).direction = .up ∧ (rampAdvance cmp r).duty = 0#32)) ∧
  ∀ s t : State, step s = .next t → t.ramp.direction = .down → s.ramp.direction = .down

/-- 42_timer_ramp.md R154: on a tick with A running, and no host write of A_DUTY in the cycle, the ramp
engine writes the new ramp duty, clamped to PERIOD, into A.SHD under EVERY_TICK, and only on a step
under STEP_ONLY. -/
def Obligations.RampWritesGeneratorA : Prop :=
  ∀ s t : State, (cycleInput s).rst = false → s.timer.en = true → s.timer.tcnt = 0#24 →
    s.genA.en = true → (∀ rq, (cycleInput s).request = some rq → rq.req ≠ 0xC048#16) →
    step s = .next t →
    (s.params.writePolicy = .everyTick ∨ t.ramp.elapsedMs.toNat % 5 = 0 →
      t.genA.shd.toNat = min t.ramp.duty.toNat s.genA.period.toNat) ∧
    (s.params.writePolicy = .stepOnly → t.ramp.elapsedMs.toNat % 5 ≠ 0 →
      t.genA.shd = s.genA.shd)

/-- 42_timer_ramp.md R156: the ramp's timeline from its reset state, k ticks with no wrap of
elapsed_ms: duty is 50 × (floor(k/5) mod 1125) with GE and 50 × (floor(k/5) mod 1126) with GT. The
spec marks the rule formalised here as derived. -/
def Obligations.RampTimelineFromReset : Prop :=
  ∀ (cmp : WrapCmp) (k : Nat), k < 2 ^ 32 →
    let r := (rampAdvance cmp)^[k] Ramp.reset
    r.elapsedMs.toNat = k ∧ r.direction = .up ∧
      r.duty.toNat = 50 * (k / 5 % (match cmp with | .ge => 1125 | .gt => 1126))

/-- 42_timer_ramp.md R157: at the wrap of elapsed_ms two steps come on two ticks running. The spec
marks the rule formalised here as derived. -/
def Obligations.ElapsedWrapStepsTwice : Prop :=
  ∀ (cmp : WrapCmp) (d : Word),
    let r0 : Ramp := { elapsedMs := 4294967294#32, duty := d, direction := .up }
    let r1 := rampAdvance cmp r0
    let r2 := rampAdvance cmp r1
    r1.elapsedMs = 4294967295#32 ∧ r1 = rampUp cmp { r0 with elapsedMs := 4294967295#32 } ∧
      r2.elapsedMs = 0#32 ∧ r2 = rampUp cmp { r1 with elapsedMs := 0#32 }

/-- 70_reset_and_hazards.md R216: in a state of R46 the draw ord_n changes the result of a cycle only
if the cycle has both a timer tick, on which the ramp engine writes (R154), and a host access to
A_DUTY. The spec marks the rule formalised here as derived. -/
def Obligations.OrderShowsOnlyOnACollision : Prop :=
  ∀ (s : State) (req : Option Request), BlockInv s →
    (timerTick s.timer = true →
      s.params.writePolicy = .everyTick ∨ (s.ramp.elapsedMs.toNat + 1) % 2 ^ 32 % 5 = 0 →
      ∀ rq, req = some rq → rq.req ≠ 0xC048#16 ∧ rq.req ≠ 0x4048#16) →
    step (decideInput { rst := false, request := req, order := .busFirst } s) =
      step (decideInput { rst := false, request := req, order := .rampFirst } s)

/-- 70_reset_and_hazards.md R216: a timer tick and a host access to A_DUTY in one cycle, when the
engine writes: a host write leaves the ramp's value (BUS_FIRST) or the host's (RAMP_FIRST) in A.SHD, and
a host read returns A.SHD before (BUS_FIRST) or after (RAMP_FIRST) the ramp's write. The spec marks
the rule formalised here as derived. -/
def Obligations.CollisionOnADuty : Prop :=
  ∀ (s : State) (w : Word) (order : Order), BlockInv s → timerTick s.timer = true →
    let r := rampAdvance s.params.wrapCmp s.ramp
    (s.params.writePolicy = .everyTick ∨ r.elapsedMs.toNat % 5 = 0) →
    (∃ t, step (decideInput { rst := false, request := some ⟨0xC048#16, w⟩, order := order } s) =
        .next t ∧ t.out.resp = .okay ∧
        t.genA.shd.toNat = (match order with
          | .busFirst => min r.duty.toNat s.genA.period.toNat
          | .rampFirst => min w.toNat s.genA.period.toNat)) ∧
    (∃ t, step (decideInput { rst := false, request := some ⟨0x4048#16, w⟩, order := order } s) =
        .next t ∧ t.out.resp = .okay ∧
        t.genA.shd.toNat = min r.duty.toNat s.genA.period.toNat ∧
        t.out.rdata.toNat = (match order with
          | .busFirst => s.genA.shd.toNat
          | .rampFirst => min r.duty.toNat s.genA.period.toNat))

/-- 42_timer_ramp.md R141: a tick detected in the same cycle as a stop still runs its ramp step, and
the timer is stopped. -/
def Obligations.StopDoesNotCancelATick : Prop :=
  ∀ (s : State) (w : Word) (order : Order), timerTick s.timer = true → w.getLsbD 0 = false →
    ∃ t, step (decideInput { rst := false, request := some ⟨0xC100#16, w⟩, order := order } s) =
        .next t ∧ t.timer.en = false ∧ t.ramp = rampAdvance s.params.wrapCmp s.ramp ∧
        t.out.resp = .okay

/-- 42_timer_ramp.md R146: ticks fall exactly N cycles apart. From a running timer that has just been
loaded (TCNT = N - 1), over m × N cycles with RST low and no WR.TCTRL, exactly m ticks run the ramp
engine and the timer is loaded again. The spec marks the rule formalised here as derived. -/
def Obligations.TicksFallEveryNCycles : Prop :=
  ∀ (m : Nat) (s t : State) (cycles : List CycleInput),
    s.timer.en = true → s.timer.n ≠ 0#24 → s.timer.tcnt = s.timer.n - 1#24 →
    s.inputs = cycles → cycles.length = m * s.timer.n.toNat →
    (∀ i ∈ cycles, i.rst = false ∧ ∀ rq, i.request = some rq → rq.req ≠ 0xC100#16) →
    core.run cycles.length s = .next t →
    t.ramp = (rampAdvance s.params.wrapCmp)^[m] s.ramp ∧ t.timer = s.timer ∧ t.inputs = []

/-! ## Reads -/

/-- 40_clock_config.md R100: RD.CLKCFG (REQ 0x4000) returns DIVEN at bit 0 and DIVLOG2 at bits 7:4, every other bit
0, and changes nothing but the response. -/
def Obligations.ReadClockConfiguration : Prop :=
  (∀ w : Word, decode 0x4000#16 w = .op .rdClkcfg) ∧
  ∀ s : State, exec .rdClkcfg s = .next { s with out := { s.out with
    resp := .okay
    rdata := BitVec.ofNat 32 (s.clk.diven.toNat + 16 * s.clk.divlog2.toNat) } }

/-- 41_pwm_generator.md R111, R112: RD.g_CTRL and RD.g_PERIOD return EN and PERIOD zero-extended, and
change nothing but the response. -/
def Obligations.ReadGeneratorConfiguration : Prop :=
  (∀ w : Word, decode 0x4040#16 w = .op .rdACtrl ∧ decode 0x4080#16 w = .op .rdBCtrl ∧
    decode 0x4044#16 w = .op .rdAPeriod ∧ decode 0x4084#16 w = .op .rdBPeriod) ∧
  ∀ s : State,
    exec .rdACtrl s = .next { s with out := { s.out with
      resp := .okay, rdata := BitVec.ofNat 32 s.genA.en.toNat } } ∧
    exec .rdBCtrl s = .next { s with out := { s.out with
      resp := .okay, rdata := BitVec.ofNat 32 s.genB.en.toNat } } ∧
    exec .rdAPeriod s = .next { s with out := { s.out with
      resp := .okay, rdata := BitVec.ofNat 32 s.genA.period.toNat } } ∧
    exec .rdBPeriod s = .next { s with out := { s.out with
      resp := .okay, rdata := BitVec.ofNat 32 s.genB.period.toNat } }

/-- 41_pwm_generator.md R113, R114, R119: RD.g_DUTY returns the shadow duty, RD.g_DUTYACT the active
duty, RD.g_COUNT the counter, zero-extended, and they change nothing but the response. -/
def Obligations.ReadGeneratorDutyAndCount : Prop :=
  (∀ w : Word, decode 0x4048#16 w = .op .rdADuty ∧ decode 0x4088#16 w = .op .rdBDuty ∧
    decode 0x404C#16 w = .op .rdADutyact ∧ decode 0x408C#16 w = .op .rdBDutyact ∧
    decode 0x4050#16 w = .op .rdACount ∧ decode 0x4090#16 w = .op .rdBCount) ∧
  ∀ s : State,
    exec .rdADuty s = .next { s with out := { s.out with
      resp := .okay, rdata := BitVec.ofNat 32 s.genA.shd.toNat } } ∧
    exec .rdBDuty s = .next { s with out := { s.out with
      resp := .okay, rdata := BitVec.ofNat 32 s.genB.shd.toNat } } ∧
    exec .rdADutyact s = .next { s with out := { s.out with
      resp := .okay, rdata := BitVec.ofNat 32 s.genA.act.toNat } } ∧
    exec .rdBDutyact s = .next { s with out := { s.out with
      resp := .okay, rdata := BitVec.ofNat 32 s.genB.act.toNat } } ∧
    exec .rdACount s = .next { s with out := { s.out with
      resp := .okay, rdata := BitVec.ofNat 32 s.genA.cnt.toNat } } ∧
    exec .rdBCount s = .next { s with out := { s.out with
      resp := .okay, rdata := BitVec.ofNat 32 s.genB.cnt.toNat } }

/-- 42_timer_ramp.md R140, R143, R144: RD.TCTRL, RD.TRELOAD and RD.TCOUNT return EN, N and TCNT
zero-extended, and change nothing but the response. -/
def Obligations.ReadTimerRegisters : Prop :=
  (∀ w : Word, decode 0x4100#16 w = .op .rdTctrl ∧ decode 0x4104#16 w = .op .rdTreload ∧
    decode 0x4108#16 w = .op .rdTcount) ∧
  ∀ s : State,
    exec .rdTctrl s = .next { s with out := { s.out with
      resp := .okay, rdata := BitVec.ofNat 32 s.timer.en.toNat } } ∧
    exec .rdTreload s = .next { s with out := { s.out with
      resp := .okay, rdata := BitVec.ofNat 32 s.timer.n.toNat } } ∧
    exec .rdTcount s = .next { s with out := { s.out with
      resp := .okay, rdata := BitVec.ofNat 32 s.timer.tcnt.toNat } }

/-- 43_error_status.md R171, R172: RD.ERRSTAT returns REQ at bits 31:16, COUNT at 15:8 and CODE at
3:0, RD.ERRDATA the recorded data; the reads clear nothing. -/
def Obligations.ReadErrorRecord : Prop :=
  (∀ w : Word, decode 0x41F0#16 w = .op .rdErrstat ∧ decode 0x41F4#16 w = .op .rdErrdata) ∧
  ∀ s : State,
    exec .rdErrstat s = .next { s with out := { s.out with
      resp := .okay
      rdata := BitVec.ofNat 32
        (65536 * s.err.req.toNat + 256 * s.err.count.toNat + s.err.code.toNat) } } ∧
    exec .rdErrdata s = .next { s with out := { s.out with
      resp := .okay, rdata := s.err.data } }

/-- 70_reset_and_hazards.md R215, 41_pwm_generator.md R119, 42_timer_ramp.md R144: a read of any
register but A_DUTY in cycle n returns its value after that cycle's counters, whatever ord_n, in a
state of R46. -/
def Obligations.ReadSeesThisCyclesCounters : Prop :=
  ∀ (s : State) (r : Reg) (w : Word) (order : Order), BlockInv s → r ≠ .aDuty →
    ∃ t, step (decideInput
        { rst := false, request := some ⟨readWord r, w⟩, order := order } s) = .next t ∧
      t.out.resp = .okay ∧ t.out.rdata = regRead r (countersPhase s)

/-! ## Writes: where each completes, with its whole result, and where it is turned away -/

/-- 40_clock_config.md R101: WR.CLKCFG. A changing write with both generators stopped loads DIVEN and
DIVLOG2 and clears psc; a write of the current value changes nothing at any time; a changing write
while a generator runs is E_LOCKED. -/
def Obligations.WriteClockConfiguration : Prop :=
  (∀ w : Word, decode 0xC000#16 w = .op (.wrClkcfg w)) ∧
  ∀ (w : Word) (s : State),
    let changed : Prop := w.getLsbD 0 ≠ s.clk.diven ∨ w.toNat / 16 % 16 ≠ s.clk.divlog2.toNat
    (changed → s.genA.en = false → s.genB.en = false →
      exec (.wrClkcfg w) s = .next { s with
        clk := { diven := w.getLsbD 0, divlog2 := BitVec.ofNat 4 (w.toNat / 16), psc := 0#16 }
        out := { s.out with resp := .okay, rdata := 0#32 } }) ∧
    (¬ changed →
      exec (.wrClkcfg w) s = .next { s with out := { s.out with resp := .okay, rdata := 0#32 } }) ∧
    (changed → s.genA.en = true ∨ s.genB.en = true →
      exec (.wrClkcfg w) s = .next (busError .locked ⟨0xC000#16, w⟩ s))

/-- 41_pwm_generator.md R118: WR.g_CTRL. A 1 to a stopped generator, with the clock configured and the
period programmed, starts it: EN = 1, CNT = PERIOD - 1, ACT = SHD. A write of the current EN changes
nothing. A 0 to a running generator is E_LOCKED, and an enable whose preconditions fail is E_STATE. -/
def Obligations.WriteGeneratorControl : Prop :=
  (∀ w : Word, decode 0xC040#16 w = .op (ctrlWrite .a w) ∧ decode 0xC080#16 w = .op (ctrlWrite .b w)) ∧
  ∀ (g : GenId) (w : Word) (s : State),
    ((genOf g s).en = false → w.getLsbD 0 = true → s.clk.diven = true → (genOf g s).period ≠ 0#16 →
      exec (ctrlWrite g w) s = .next (respondOkay 0#32 (setGen g
        { en := true
          period := (genOf g s).period
          shd := (genOf g s).shd
          act := (genOf g s).shd
          cnt := BitVec.ofNat 16 ((genOf g s).period.toNat - 1) } s))) ∧
    (w.getLsbD 0 = (genOf g s).en →
      exec (ctrlWrite g w) s = .next { s with out := { s.out with resp := .okay, rdata := 0#32 } }) ∧
    ((genOf g s).en = true → w.getLsbD 0 = false →
      exec (ctrlWrite g w) s = .next (busError .locked ⟨writeWord (ctrlReg g), w⟩ s)) ∧
    ((genOf g s).en = false → w.getLsbD 0 = true → s.clk.diven = false ∨ (genOf g s).period = 0#16 →
      exec (ctrlWrite g w) s = .next (busError .state ⟨writeWord (ctrlReg g), w⟩ s))

/-- 41_pwm_generator.md R116: WR.g_PERIOD. To a stopped generator a value 1 to 0xFFFF is stored, SHD is
clamped to it and copied to ACT; any other value is E_RANGE. To a running generator the same value
changes nothing and any other is E_LOCKED (0 too: 60_exceptions.md R182). -/
def Obligations.WriteGeneratorPeriod : Prop :=
  (∀ w : Word, decode 0xC044#16 w = .op (periodWrite .a w) ∧ decode 0xC084#16 w = .op (periodWrite .b w)) ∧
  ∀ (g : GenId) (w : Word) (s : State),
    ((genOf g s).en = false → 1 ≤ w.toNat → w.toNat ≤ 0xFFFF →
      exec (periodWrite g w) s = .next (respondOkay 0#32 (setGen g
        { en := false
          period := BitVec.ofNat 16 w.toNat
          shd := BitVec.ofNat 16 (min (genOf g s).shd.toNat w.toNat)
          act := BitVec.ofNat 16 (min (genOf g s).shd.toNat w.toNat)
          cnt := (genOf g s).cnt } s))) ∧
    ((genOf g s).en = true → w.toNat = (genOf g s).period.toNat →
      exec (periodWrite g w) s = .next { s with out := { s.out with resp := .okay, rdata := 0#32 } }) ∧
    ((genOf g s).en = true → w.toNat ≠ (genOf g s).period.toNat →
      exec (periodWrite g w) s = .next (busError .locked ⟨writeWord (periodReg g), w⟩ s)) ∧
    ((genOf g s).en = false → w.toNat = 0 ∨ 0xFFFF < w.toNat →
      exec (periodWrite g w) s = .next (busError .range ⟨writeWord (periodReg g), w⟩ s))

/-- 41_pwm_generator.md R117 with R115: WR.g_DUTY. With a period programmed, SHD takes
min(WDATA, PERIOD) of the whole 32-bit WDATA, and ACT follows it only while the generator is stopped;
with no period it is E_STATE. -/
def Obligations.WriteGeneratorDuty : Prop :=
  (∀ w : Word, decode 0xC048#16 w = .op (dutyRegWrite .a w) ∧ decode 0xC088#16 w = .op (dutyRegWrite .b w)) ∧
  ∀ (g : GenId) (w : Word) (s : State),
    ((genOf g s).period ≠ 0#16 →
      exec (dutyRegWrite g w) s = .next (respondOkay 0#32 (setGen g
        { genOf g s with
          shd := BitVec.ofNat 16 (min w.toNat (genOf g s).period.toNat)
          act := if (genOf g s).en = true then (genOf g s).act
            else BitVec.ofNat 16 (min w.toNat (genOf g s).period.toNat) } s))) ∧
    ((genOf g s).period = 0#16 →
      exec (dutyRegWrite g w) s = .next (busError .state ⟨writeWord (dutyReg g), w⟩ s))

/-- 42_timer_ramp.md R141: WR.TCTRL. A 1 to a stopped timer, with A running and TRELOAD programmed,
starts it with TCNT = N - 1; a 0 to a running timer stops it and holds TCNT; the current EN changes
nothing; an enable whose preconditions fail is E_STATE. The ramp state is held by all of them. -/
def Obligations.WriteTimerControl : Prop :=
  (∀ w : Word, decode 0xC100#16 w = .op (.wrTctrl w)) ∧
  ∀ (w : Word) (s : State),
    (s.timer.en = false → w.getLsbD 0 = true → s.genA.en = true → s.timer.n ≠ 0#24 →
      exec (.wrTctrl w) s = .next { s with
        timer := { en := true, n := s.timer.n, tcnt := BitVec.ofNat 24 (s.timer.n.toNat - 1) }
        out := { s.out with resp := .okay, rdata := 0#32 } }) ∧
    (s.timer.en = true → w.getLsbD 0 = false →
      exec (.wrTctrl w) s = .next { s with
        timer := { en := false, n := s.timer.n, tcnt := s.timer.tcnt }
        out := { s.out with resp := .okay, rdata := 0#32 } }) ∧
    (w.getLsbD 0 = s.timer.en →
      exec (.wrTctrl w) s = .next { s with out := { s.out with resp := .okay, rdata := 0#32 } }) ∧
    (s.timer.en = false → w.getLsbD 0 = true → s.genA.en = false ∨ s.timer.n = 0#24 →
      exec (.wrTctrl w) s = .next (busError .state ⟨0xC100#16, w⟩ s))

/-- 42_timer_ramp.md R142: WR.TRELOAD. To a stopped timer a value 1 to 0xFFFFFF is stored and any other
is E_RANGE; to a running timer the same value changes nothing and any other is E_LOCKED. -/
def Obligations.WriteTimerReload : Prop :=
  (∀ w : Word, decode 0xC104#16 w = .op (.wrTreload w)) ∧
  ∀ (w : Word) (s : State),
    (s.timer.en = false → 1 ≤ w.toNat → w.toNat ≤ 0xFFFFFF →
      exec (.wrTreload w) s = .next { s with
        timer := { en := false, n := BitVec.ofNat 24 w.toNat, tcnt := s.timer.tcnt }
        out := { s.out with resp := .okay, rdata := 0#32 } }) ∧
    (s.timer.en = true → w.toNat = s.timer.n.toNat →
      exec (.wrTreload w) s = .next { s with out := { s.out with resp := .okay, rdata := 0#32 } }) ∧
    (s.timer.en = true → w.toNat ≠ s.timer.n.toNat →
      exec (.wrTreload w) s = .next (busError .locked ⟨0xC104#16, w⟩ s)) ∧
    (s.timer.en = false → w.toNat = 0 ∨ 0xFFFFFF < w.toNat →
      exec (.wrTreload w) s = .next (busError .range ⟨0xC104#16, w⟩ s))

/-! ## Frames -/

/-- 41_pwm_generator.md R127, R110: a write to one generator's register, accepted or not, changes no
state of the other generator, the clock, the timer or the ramp, and no pin; of its own generator,
WR.g_CTRL leaves PERIOD and SHD, WR.g_PERIOD leaves EN and CNT, WR.g_DUTY leaves EN, PERIOD and CNT;
and every register of the window but that generator's and the error record reads as before. That no
pin changes is no part of those rules but the model's own reading (log entry 7, DEDUCED): exec leaves
the pins, and the step sets them from the state at the cycle's end, so an enable shows there (R118). -/
def Obligations.GeneratorWriteFrame : Prop :=
  ∀ (g : GenId) (w : Word) (i : Instr) (s t : State),
    i = ctrlWrite g w ∨ i = periodWrite g w ∨ i = dutyRegWrite g w → exec i s = .next t →
    t = { setGen g (genOf g t) s with err := t.err, out := t.out } ∧
    t.out.pwmA = s.out.pwmA ∧ t.out.pwmB = s.out.pwmB ∧
    (i = ctrlWrite g w →
      (genOf g t).period = (genOf g s).period ∧ (genOf g t).shd = (genOf g s).shd) ∧
    (i = periodWrite g w →
      (genOf g t).en = (genOf g s).en ∧ (genOf g t).cnt = (genOf g s).cnt) ∧
    (i = dutyRegWrite g w →
      (genOf g t).en = (genOf g s).en ∧ (genOf g t).period = (genOf g s).period ∧
        (genOf g t).cnt = (genOf g s).cnt) ∧
    (∀ r : Reg,
      (match g with
        | .a => r ∉ [.aCtrl, .aPeriod, .aDuty, .aDutyact, .aCount, .errstat, .errdata]
        | .b => r ∉ [.bCtrl, .bPeriod, .bDuty, .bDutyact, .bCount, .errstat, .errdata]) →
      regRead r t = regRead r s)

/-- 40_clock_config.md R101, 60_exceptions.md R180: WR.CLKCFG, accepted or not, changes no generator,
no timer, no ramp state and no pin; the error record changes only with an error response, and every
register of the window but CLKCFG and the error record reads as before. That no pin changes is the
model's own reading (log entry 7, DEDUCED): exec leaves the pins to the cycle's end. -/
def Obligations.ClockWriteFrame : Prop :=
  ∀ (w : Word) (s t : State), exec (.wrClkcfg w) s = .next t →
    t = { s with clk := t.clk, err := t.err, out := t.out } ∧
    t.out.pwmA = s.out.pwmA ∧ t.out.pwmB = s.out.pwmB ∧
    (t.out.resp = .okay → t.err = s.err) ∧ (t.out.resp = .error → t.clk = s.clk) ∧
    ∀ r : Reg, r ∉ [.clkcfg, .errstat, .errdata] → regRead r t = regRead r s

/-- 42_timer_ramp.md R141, R142, R158: WR.TCTRL leaves N and WR.TRELOAD leaves EN and TCNT; neither
changes the clock, a generator, the ramp state or a pin, accepted or not; and every register of the
window but the timer's and the error record reads as before. That no pin changes is the model's own
reading (log entry 7, DEDUCED): exec leaves the pins to the cycle's end. -/
def Obligations.TimerWriteFrame : Prop :=
  ∀ (w : Word) (i : Instr) (s t : State), i = .wrTctrl w ∨ i = .wrTreload w → exec i s = .next t →
    t = { s with timer := t.timer, err := t.err, out := t.out } ∧
    t.out.pwmA = s.out.pwmA ∧ t.out.pwmB = s.out.pwmB ∧
    (i = .wrTctrl w → t.timer.n = s.timer.n) ∧
    (i = .wrTreload w → t.timer.en = s.timer.en ∧ t.timer.tcnt = s.timer.tcnt) ∧
    ∀ r : Reg, r ∉ [.tctrl, .treload, .tcount, .errstat, .errdata] → regRead r t = regRead r s

/-- 20_memory.md R65: no read has a side effect, so a read may be repeated; an accepted write made
again at once leaves the same state as making it once; a write that errors is not idempotent: it counts
again. The spec marks part of the rule formalised here as derived. -/
def Obligations.AccessesAreIdempotent : Prop :=
  ∀ (i : Instr) (s t : State), exec i s = .next t →
    (isWrite i = false →
      t = { s with out := { s.out with resp := .okay, rdata := t.out.rdata } } ∧
        exec i t = .next t) ∧
    (isWrite i = true → t.out.resp = .okay → exec i t = .next t) ∧
    (t.out.resp = .error → t.err.count.toNat = min (s.err.count.toNat + 1) 255)

/-! ## Errors -/

/-- 43_error_status.md R170, 60_exceptions.md R181, R183: what an erroring transaction does to the
error record and the response: the first error since reset records its code, request word and write
data (0 for a read), a later one only counts, and COUNT saturates at 255; nothing else changes. -/
def Obligations.BusErrorRecordsTheFirst : Prop :=
  ∀ (code : ErrCode) (rq : Request) (s : State),
    let t := busError code rq s
    t = { s with err := t.err, out := { s.out with resp := .error, rdata := 0#32 } } ∧
    t.err.count.toNat = min (s.err.count.toNat + 1) 255 ∧
    (s.err.code = 0#4 →
      t.err.code.toNat = (match code with
        | .width => 1 | .align => 2 | .unmapped => 3 | .readOnly => 4
        | .locked => 5 | .state => 6 | .range => 7) ∧
      t.err.req = rq.req ∧
      t.err.data = (if 32768 ≤ rq.req.toNat then rq.wdata else 0#32)) ∧
    (s.err.code ≠ 0#4 → t.err.code = s.err.code ∧ t.err.req = s.err.req ∧ t.err.data = s.err.data)

/-- 60_exceptions.md R180: an erroring transaction is precise and leaves the rest of its cycle alone:
the state after the cycle is that of the same cycle without the transaction, plus the error status and
the error response with RDATA = 0. The code is the one the decode gives, or the one that the operation
itself raises on the state it acts on, whatever the error record holds. -/
def Obligations.ErroringTransactionIsPrecise : Prop :=
  ∀ (s t : State) (rq : Request) (order : Order),
    step (decideInput { rst := false, request := some rq, order := order } s) = .next t →
    t.out.resp = .error →
    let u : State := match order with
      | .busFirst => countersPhase s
      | .rampFirst => rampPhase (timerTick s.timer) (countersPhase s)
    ∃ (code : ErrCode) (t0 : State),
      (match decode rq.req rq.wdata with
        | .error c => code = c
        | .op i => ∀ e : ErrorStatus,
          exec i { u with err := e } = .next (busError code rq { u with err := e })) ∧
      step (decideInput { rst := false, request := none, order := order } s) = .next t0 ∧
      t = { t0 with
        err := errorCapture code rq s.err
        out := { t0.out with resp := .error, rdata := 0#32 } }

/-- 43_error_status.md R170, 60_exceptions.md R183: nothing but reset clears the error record. In a
cycle with RST low the first error stays, COUNT never falls, an error response counts one up to 255,
and without one the record is unchanged. -/
def Obligations.FirstErrorIsKept : Prop :=
  ∀ s t : State, (cycleInput s).rst = false → step s = .next t →
    (s.err.code ≠ 0#4 →
      t.err.code = s.err.code ∧ t.err.req = s.err.req ∧ t.err.data = s.err.data) ∧
    (t.out.resp = .error →
      t.err.code ≠ 0#4 ∧ t.err.count.toNat = min (s.err.count.toNat + 1) 255) ∧
    (t.out.resp = .okay → t.err = s.err)

/-- 60_exceptions.md R184: the internal events never raise an error: a cycle with RST low and no
transaction answers OKAY with RDATA = 0 and leaves the error record, whatever ticks, boundaries and ramp
steps it has. The spec marks the rule formalised here as derived. -/
def Obligations.InternalEventsNeverError : Prop :=
  ∀ s : State, (cycleInput s).rst = false → (cycleInput s).request = none →
    ∃ t, step s = .next t ∧ t.err = s.err ∧ t.out.resp = .okay ∧ t.out.rdata = 0#32

/-! ## Invariants and whole-machine rules -/

/-- 10_state.md R46, 40_clock_config.md R103: every step keeps the invariant of the registers and
counters (SHD ≤ PERIOD, ACT ≤ PERIOD, CNT in range and the clock on while a generator runs, A running
while the timer runs, psc < D). The spec marks the rules formalised here as derived. -/
def Obligations.StepKeepsBlockInvariant : Prop :=
  ∀ s t : State, BlockInv s → step s = .next t → BlockInv t

/-- 10_state.md R47: every step keeps the ramp's invariant for the value of RAMP_WRAP_CMP: a duty that
is a multiple of 50, at most 56200 (GE) or 56250 (GT), and direction UP. The spec marks the rule
formalised here as derived. -/
def Obligations.StepKeepsRampInvariant : Prop :=
  ∀ s t : State, RampInv s.params.wrapCmp s.ramp → step s = .next t →
    RampInv t.params.wrapCmp t.ramp

/-- 60_exceptions.md R181, 43_error_status.md R170: every step keeps the shape of the error record:
codes 8 to 15 never occur, no code means an empty record, a code means at least one counted error, and
a recorded read has data 0. -/
def Obligations.StepKeepsErrorRecordShape : Prop :=
  ∀ s t : State, ErrorInv s.err → step s = .next t → ErrorInv t.err

/-- 10_state.md R44, R46, R47: the reset state meets the three invariants. -/
def Obligations.ResetMeetsInvariants : Prop :=
  BlockInv State.reset ∧ RampInv State.reset.params.wrapCmp State.reset.ramp ∧
    ErrorInv State.reset.err

/-- 70_reset_and_hazards.md R221: configuration is fixed once running. In a cycle with RST low CLKCFG
does not change while a generator runs, PERIOD and EN of a running generator do not change, and TRELOAD
does not change while the timer runs. The spec marks the rule formalised here as derived. -/
def Obligations.ConfigurationFixedOnceRunning : Prop :=
  ∀ s t : State, (cycleInput s).rst = false → step s = .next t →
    (s.genA.en = true ∨ s.genB.en = true →
      t.clk.diven = s.clk.diven ∧ t.clk.divlog2 = s.clk.divlog2) ∧
    (∀ g, (genOf g s).en = true →
      (genOf g t).en = true ∧ (genOf g t).period = (genOf g s).period) ∧
    (s.timer.en = true → t.timer.n = s.timer.n)

/-- 60_exceptions.md R197: with CLKCFG.DIVEN = 0 and TCTRL.EN = 0, a cycle with RST low and no
transaction changes nothing in the block. -/
def Obligations.IdleBlockHoldsStill : Prop :=
  ∀ s : State, s.clk.diven = false → s.timer.en = false → (cycleInput s).rst = false →
    (cycleInput s).request = none →
    ∃ t, step s = .next t ∧ t.clk = s.clk ∧ t.genA = s.genA ∧ t.genB = s.genB ∧
      t.timer = s.timer ∧ t.ramp = s.ramp ∧ t.err = s.err

/-! ## The host's contract -/

/-- 60_exceptions.md R198 to R200: while the host keeps its contract after bring-up, no fault is
recorded, the generators and the timer keep running, and generator B's duty stays one of 1875, 3125,
5000 and 7187. The reading of the contract is the model's (log entry 14). -/
def Obligations.ContractKeepsProductRun : Prop :=
  ∀ s t : State, ProductRun s → contractInput (cycleInput s) = true → step s = .next t →
    ProductRun t

/-- 60_exceptions.md R200: the button dispatch writes the duty of its one mapped bit, nothing without
one, and with several what BTN_POLICY says: the lowest bit's duty, or nothing. The 32-bit status
word is the model's (log entry 14). -/
def Obligations.ButtonDispatchTable : Prop :=
  ∀ (policy : BtnPolicy) (status : Word),
    let b : Nat → Bool := fun k => status.getLsbD k
    ((b 2, b 3, b 4, b 5) = (false, false, false, false) → buttonDispatch policy status = none) ∧
    ((b 2, b 3, b 4, b 5) = (true, false, false, false) → buttonDispatch policy status = some 1875) ∧
    ((b 2, b 3, b 4, b 5) = (false, true, false, false) → buttonDispatch policy status = some 3125) ∧
    ((b 2, b 3, b 4, b 5) = (false, false, true, false) → buttonDispatch policy status = some 5000) ∧
    ((b 2, b 3, b 4, b 5) = (false, false, false, true) → buttonDispatch policy status = some 7187) ∧
    (1 < ([b 2, b 3, b 4, b 5].filter id).length →
      buttonDispatch policy status = match policy with
        | .singleBitOnly => none
        | .lowestBitWins =>
          if b 2 then some 1875 else if b 3 then some 3125 else some 5000)
end

