-- ==== Sys2Proof/Laws/State.lean ====
section
/-! SUPPORT. What each named update of the state leaves in each field, so that no proof unfolds a
record update. -/

namespace Sys2Proof.Machine

@[simp] theorem respondOkay_clk (v : Word) (s : State) : (respondOkay v s).clk = s.clk := rfl
@[simp] theorem respondOkay_genA (v : Word) (s : State) : (respondOkay v s).genA = s.genA := rfl
@[simp] theorem respondOkay_genB (v : Word) (s : State) : (respondOkay v s).genB = s.genB := rfl
@[simp] theorem respondOkay_timer (v : Word) (s : State) : (respondOkay v s).timer = s.timer := rfl
@[simp] theorem respondOkay_ramp (v : Word) (s : State) : (respondOkay v s).ramp = s.ramp := rfl
@[simp] theorem respondOkay_err (v : Word) (s : State) : (respondOkay v s).err = s.err := rfl
@[simp] theorem respondOkay_out (v : Word) (s : State) : (respondOkay v s).out = { s.out with resp := .okay, rdata := v } := rfl
@[simp] theorem respondOkay_params (v : Word) (s : State) : (respondOkay v s).params = s.params := rfl
@[simp] theorem respondOkay_inputs (v : Word) (s : State) : (respondOkay v s).inputs = s.inputs := rfl
@[simp] theorem respondOkay_drawn (v : Word) (s : State) : (respondOkay v s).drawn = s.drawn := rfl

@[simp] theorem respondError_clk (s : State) : (respondError s).clk = s.clk := rfl
@[simp] theorem respondError_genA (s : State) : (respondError s).genA = s.genA := rfl
@[simp] theorem respondError_genB (s : State) : (respondError s).genB = s.genB := rfl
@[simp] theorem respondError_timer (s : State) : (respondError s).timer = s.timer := rfl
@[simp] theorem respondError_ramp (s : State) : (respondError s).ramp = s.ramp := rfl
@[simp] theorem respondError_err (s : State) : (respondError s).err = s.err := rfl
@[simp] theorem respondError_out (s : State) : (respondError s).out = { s.out with resp := .error, rdata := 0#32 } := rfl
@[simp] theorem respondError_params (s : State) : (respondError s).params = s.params := rfl
@[simp] theorem respondError_inputs (s : State) : (respondError s).inputs = s.inputs := rfl
@[simp] theorem respondError_drawn (s : State) : (respondError s).drawn = s.drawn := rfl

@[simp] theorem busError_clk (c : ErrCode) (rq : Request) (s : State) : (busError c rq s).clk = s.clk := rfl
@[simp] theorem busError_genA (c : ErrCode) (rq : Request) (s : State) : (busError c rq s).genA = s.genA := rfl
@[simp] theorem busError_genB (c : ErrCode) (rq : Request) (s : State) : (busError c rq s).genB = s.genB := rfl
@[simp] theorem busError_timer (c : ErrCode) (rq : Request) (s : State) : (busError c rq s).timer = s.timer := rfl
@[simp] theorem busError_ramp (c : ErrCode) (rq : Request) (s : State) : (busError c rq s).ramp = s.ramp := rfl
@[simp] theorem busError_err (c : ErrCode) (rq : Request) (s : State) : (busError c rq s).err = errorCapture c rq s.err := rfl
@[simp] theorem busError_out (c : ErrCode) (rq : Request) (s : State) : (busError c rq s).out = { s.out with resp := .error, rdata := 0#32 } := rfl
@[simp] theorem busError_params (c : ErrCode) (rq : Request) (s : State) : (busError c rq s).params = s.params := rfl
@[simp] theorem busError_inputs (c : ErrCode) (rq : Request) (s : State) : (busError c rq s).inputs = s.inputs := rfl
@[simp] theorem busError_drawn (c : ErrCode) (rq : Request) (s : State) : (busError c rq s).drawn = s.drawn := rfl

@[simp] theorem countersPhase_clk (s : State) : (countersPhase s).clk = countClock s.clk := rfl
@[simp] theorem countersPhase_genA (s : State) : (countersPhase s).genA = countGenerator (pwmTick s.clk) s.genA := rfl
@[simp] theorem countersPhase_genB (s : State) : (countersPhase s).genB = countGenerator (pwmTick s.clk) s.genB := rfl
@[simp] theorem countersPhase_timer (s : State) : (countersPhase s).timer = countTimer s.timer := rfl
@[simp] theorem countersPhase_ramp (s : State) : (countersPhase s).ramp = s.ramp := rfl
@[simp] theorem countersPhase_err (s : State) : (countersPhase s).err = s.err := rfl
@[simp] theorem countersPhase_out (s : State) : (countersPhase s).out = { s.out with resp := .okay, rdata := 0#32 } := rfl
@[simp] theorem countersPhase_params (s : State) : (countersPhase s).params = s.params := rfl
@[simp] theorem countersPhase_inputs (s : State) : (countersPhase s).inputs = s.inputs := rfl
@[simp] theorem countersPhase_drawn (s : State) : (countersPhase s).drawn = s.drawn := rfl

@[simp] theorem rampStep_clk (s : State) : (rampStep s).clk = s.clk := rfl
@[simp] theorem rampStep_genA (s : State) : (rampStep s).genA = 
    (if rampWrites s.params.writePolicy (rampSteps (rampAdvance s.params.wrapCmp s.ramp).elapsedMs) then
      dutyWrite (rampAdvance s.params.wrapCmp s.ramp).duty s.genA else s.genA) := rfl
@[simp] theorem rampStep_genB (s : State) : (rampStep s).genB = s.genB := rfl
@[simp] theorem rampStep_timer (s : State) : (rampStep s).timer = s.timer := rfl
@[simp] theorem rampStep_ramp (s : State) : (rampStep s).ramp = rampAdvance s.params.wrapCmp s.ramp := rfl
@[simp] theorem rampStep_err (s : State) : (rampStep s).err = s.err := rfl
@[simp] theorem rampStep_out (s : State) : (rampStep s).out = s.out := rfl
@[simp] theorem rampStep_params (s : State) : (rampStep s).params = s.params := rfl
@[simp] theorem rampStep_inputs (s : State) : (rampStep s).inputs = s.inputs := rfl
@[simp] theorem rampStep_drawn (s : State) : (rampStep s).drawn = s.drawn := rfl

@[simp] theorem driveOutputs_clk (s : State) : (driveOutputs s).clk = s.clk := rfl
@[simp] theorem driveOutputs_genA (s : State) : (driveOutputs s).genA = s.genA := rfl
@[simp] theorem driveOutputs_genB (s : State) : (driveOutputs s).genB = s.genB := rfl
@[simp] theorem driveOutputs_timer (s : State) : (driveOutputs s).timer = s.timer := rfl
@[simp] theorem driveOutputs_ramp (s : State) : (driveOutputs s).ramp = s.ramp := rfl
@[simp] theorem driveOutputs_err (s : State) : (driveOutputs s).err = s.err := rfl
@[simp] theorem driveOutputs_out (s : State) : (driveOutputs s).out = { s.out with pwmA := outLevel s.genA, pwmB := outLevel s.genB } := rfl
@[simp] theorem driveOutputs_params (s : State) : (driveOutputs s).params = s.params := rfl
@[simp] theorem driveOutputs_inputs (s : State) : (driveOutputs s).inputs = s.inputs := rfl
@[simp] theorem driveOutputs_drawn (s : State) : (driveOutputs s).drawn = s.drawn := rfl

@[simp] theorem resetBlock_clk (s : State) : (resetBlock s).clk = Clock.reset := rfl
@[simp] theorem resetBlock_genA (s : State) : (resetBlock s).genA = Generator.reset := rfl
@[simp] theorem resetBlock_genB (s : State) : (resetBlock s).genB = Generator.reset := rfl
@[simp] theorem resetBlock_timer (s : State) : (resetBlock s).timer = Timer.reset := rfl
@[simp] theorem resetBlock_ramp (s : State) : (resetBlock s).ramp = Ramp.reset := rfl
@[simp] theorem resetBlock_err (s : State) : (resetBlock s).err = ErrorStatus.reset := rfl
@[simp] theorem resetBlock_out (s : State) : (resetBlock s).out = Outputs.reset := rfl
@[simp] theorem resetBlock_params (s : State) : (resetBlock s).params = s.params := rfl
@[simp] theorem resetBlock_inputs (s : State) : (resetBlock s).inputs = s.inputs := rfl
@[simp] theorem resetBlock_drawn (s : State) : (resetBlock s).drawn = s.drawn := rfl

@[simp] theorem decideInput_clk (i : CycleInput) (s : State) : (decideInput i s).clk = s.clk := rfl
@[simp] theorem decideInput_genA (i : CycleInput) (s : State) : (decideInput i s).genA = s.genA := rfl
@[simp] theorem decideInput_genB (i : CycleInput) (s : State) : (decideInput i s).genB = s.genB := rfl
@[simp] theorem decideInput_timer (i : CycleInput) (s : State) : (decideInput i s).timer = s.timer := rfl
@[simp] theorem decideInput_ramp (i : CycleInput) (s : State) : (decideInput i s).ramp = s.ramp := rfl
@[simp] theorem decideInput_err (i : CycleInput) (s : State) : (decideInput i s).err = s.err := rfl
@[simp] theorem decideInput_out (i : CycleInput) (s : State) : (decideInput i s).out = s.out := rfl
@[simp] theorem decideInput_params (i : CycleInput) (s : State) : (decideInput i s).params = s.params := rfl
@[simp] theorem decideInput_inputs (i : CycleInput) (s : State) : (decideInput i s).inputs = i :: s.inputs := rfl
@[simp] theorem decideInput_drawn (i : CycleInput) (s : State) : (decideInput i s).drawn = s.drawn := rfl

@[simp] theorem setGen_clk (g : GenId) (x : Generator) (s : State) : (setGen g x s).clk = s.clk := by
  cases g <;> rfl
@[simp] theorem setGen_timer (g : GenId) (x : Generator) (s : State) : (setGen g x s).timer = s.timer := by
  cases g <;> rfl
@[simp] theorem setGen_ramp (g : GenId) (x : Generator) (s : State) : (setGen g x s).ramp = s.ramp := by
  cases g <;> rfl
@[simp] theorem setGen_err (g : GenId) (x : Generator) (s : State) : (setGen g x s).err = s.err := by
  cases g <;> rfl
@[simp] theorem setGen_out (g : GenId) (x : Generator) (s : State) : (setGen g x s).out = s.out := by
  cases g <;> rfl
@[simp] theorem setGen_params (g : GenId) (x : Generator) (s : State) : (setGen g x s).params = s.params := by
  cases g <;> rfl
@[simp] theorem setGen_inputs (g : GenId) (x : Generator) (s : State) : (setGen g x s).inputs = s.inputs := by
  cases g <;> rfl
@[simp] theorem setGen_drawn (g : GenId) (x : Generator) (s : State) : (setGen g x s).drawn = s.drawn := by
  cases g <;> rfl
@[simp] theorem setGen_a_genA (x : Generator) (s : State) : (setGen .a x s).genA = x := rfl
@[simp] theorem setGen_a_genB (x : Generator) (s : State) : (setGen .a x s).genB = s.genB := rfl
@[simp] theorem setGen_b_genA (x : Generator) (s : State) : (setGen .b x s).genA = s.genA := rfl
@[simp] theorem setGen_b_genB (x : Generator) (s : State) : (setGen .b x s).genB = x := rfl
@[simp] theorem genOf_a (s : State) : genOf .a s = s.genA := rfl
@[simp] theorem genOf_b (s : State) : genOf .b s = s.genB := rfl

@[simp] theorem spendInput_clk (s : State) : (spendInput s).clk = s.clk := by
  unfold spendInput; split <;> rfl
@[simp] theorem spendInput_genA (s : State) : (spendInput s).genA = s.genA := by
  unfold spendInput; split <;> rfl
@[simp] theorem spendInput_genB (s : State) : (spendInput s).genB = s.genB := by
  unfold spendInput; split <;> rfl
@[simp] theorem spendInput_timer (s : State) : (spendInput s).timer = s.timer := by
  unfold spendInput; split <;> rfl
@[simp] theorem spendInput_ramp (s : State) : (spendInput s).ramp = s.ramp := by
  unfold spendInput; split <;> rfl
@[simp] theorem spendInput_err (s : State) : (spendInput s).err = s.err := by
  unfold spendInput; split <;> rfl
@[simp] theorem spendInput_out (s : State) : (spendInput s).out = s.out := by
  unfold spendInput; split <;> rfl
@[simp] theorem spendInput_params (s : State) : (spendInput s).params = s.params := by
  unfold spendInput; split <;> rfl
@[simp] theorem spendInput_decideInput (i : CycleInput) (s : State) : spendInput (decideInput i s) = s := rfl
@[simp] theorem cycleInput_decideInput (i : CycleInput) (s : State) : cycleInput (decideInput i s) = i := rfl

@[simp] theorem rampPhase_clk (tick : Bool) (s : State) : (rampPhase tick s).clk = s.clk := by
  cases tick <;> rfl
@[simp] theorem rampPhase_genB (tick : Bool) (s : State) : (rampPhase tick s).genB = s.genB := by
  cases tick <;> rfl
@[simp] theorem rampPhase_timer (tick : Bool) (s : State) : (rampPhase tick s).timer = s.timer := by
  cases tick <;> rfl
@[simp] theorem rampPhase_err (tick : Bool) (s : State) : (rampPhase tick s).err = s.err := by
  cases tick <;> rfl
@[simp] theorem rampPhase_out (tick : Bool) (s : State) : (rampPhase tick s).out = s.out := by
  cases tick <;> rfl
@[simp] theorem rampPhase_params (tick : Bool) (s : State) : (rampPhase tick s).params = s.params := by
  cases tick <;> rfl
@[simp] theorem rampPhase_inputs (tick : Bool) (s : State) : (rampPhase tick s).inputs = s.inputs := by
  cases tick <;> rfl
@[simp] theorem rampPhase_drawn (tick : Bool) (s : State) : (rampPhase tick s).drawn = s.drawn := by
  cases tick <;> rfl
@[simp] theorem rampPhase_false (s : State) : rampPhase false s = s := rfl
@[simp] theorem rampPhase_true (s : State) : rampPhase true s = rampStep s := rfl

@[simp] theorem onNext_next (f : State → State) (s : State) : onNext f (.next s) = .next (f s) := rfl
@[simp] theorem onNext_fault (f : State → State) (r : Fault) : onNext f (.fault r) = .fault r := rfl
@[simp] theorem onNext_refused (f : State → State) (r : Refusal) :
    onNext f (.refused r) = .refused r := rfl

end Sys2Proof.Machine
end

