-- ==== Sys2Proof/Laws/Rules.lean ====
section
/-! SUPPORT. One spec lemma per write rule: what an accepted write leaves, and under which conditions.
Proofs cite these and do not unfold the rules. -/

namespace Sys2Proof.Machine

theorem setWidth16_ne_zero (w : Word) (h0 : w ≠ 0#32) (h1 : ¬ 0xFFFF#32 < w) :
    (w.setWidth 16 : Count16) ≠ 0#16 := by
  intro h
  have h' := congrArg BitVec.toNat h
  have hle : w.toNat ≤ 65535 := by
    have := h1; rw [BitVec.lt_def] at this; simpa using this
  rw [BitVec.toNat_setWidth, Nat.mod_eq_of_lt (by omega)] at h'
  exact h0 (BitVec.eq_of_toNat_eq (by simpa using h'))

theorem setWidth24_ne_zero (w : Word) (h0 : w ≠ 0#32) (h1 : ¬ 0xFFFFFF#32 < w) :
    (w.setWidth 24 : Count24) ≠ 0#24 := by
  intro h
  have h' := congrArg BitVec.toNat h
  have hle : w.toNat ≤ 16777215 := by
    have := h1; rw [BitVec.lt_def] at this; simpa using this
  rw [BitVec.toNat_setWidth, Nat.mod_eq_of_lt (by omega)] at h'
  exact h0 (BitVec.eq_of_toNat_eq (by simpa using h'))

/-- 40_clock_config.md R101. -/
theorem writeClkcfg_ok {w : Word} {s t : State} (h : writeClkcfg w s = .ok t) :
    t = s ∨ (s.genA.en = false ∧ s.genB.en = false ∧
      t = { s with clk := { diven := enField w, divlog2 := divlog2Field w, psc := 0#16 } }) := by
  unfold writeClkcfg at h
  split at h
  · cases h; exact .inl rfl
  · split at h
    · cases h
    · cases h
      rename_i hab
      simp only [Bool.or_eq_true, not_or, Bool.not_eq_true] at hab
      exact .inr ⟨hab.1, hab.2, rfl⟩

/-- 41_pwm_generator.md R118. -/
theorem writeCtrl_ok {g : GenId} {w : Word} {s t : State} (h : writeCtrl g w s = .ok t) :
    t = s ∨ ((genOf g s).en = false ∧ s.clk.diven = true ∧ (genOf g s).period ≠ 0#16 ∧
      t = setGen g { genOf g s with
        en := true, cnt := (genOf g s).period - 1#16, act := (genOf g s).shd } s) := by
  unfold writeCtrl at h
  dsimp only at h
  split at h
  · cases h
  · split at h
    · cases h
    · cases h
      rename_i hen _ hc
      simp only [not_or, Bool.not_eq_false] at hc
      exact .inr ⟨hen, hc.1, hc.2, rfl⟩
  · cases h; exact .inl rfl
  · cases h; exact .inl rfl

/-- 41_pwm_generator.md R116. -/
theorem writePeriod_ok {g : GenId} {w : Word} {s t : State} (h : writePeriod g w s = .ok t) :
    t = s ∨ ((genOf g s).en = false ∧ (w.setWidth 16 : Count16) ≠ 0#16 ∧
      t = setGen g { genOf g s with
        period := w.setWidth 16
        shd := if (genOf g s).shd ≤ w.setWidth 16 then (genOf g s).shd else w.setWidth 16
        act := if (genOf g s).shd ≤ w.setWidth 16 then (genOf g s).shd else w.setWidth 16 } s) := by
  unfold writePeriod at h
  dsimp only at h
  split at h
  · split at h
    · cases h; exact .inl rfl
    · cases h
  · split at h
    · cases h
    · cases h
      rename_i hen hr
      rw [not_or] at hr
      exact .inr ⟨by simpa using hen, setWidth16_ne_zero w hr.1 hr.2, rfl⟩

/-- 41_pwm_generator.md R117. -/
theorem writeDuty_ok {g : GenId} {w : Word} {s t : State} (h : writeDuty g w s = .ok t) :
    (genOf g s).period ≠ 0#16 ∧ t = setGen g (dutyWrite w (genOf g s)) s := by
  unfold writeDuty at h
  dsimp only at h
  split at h
  · cases h
  · cases h; exact ⟨‹_›, rfl⟩

/-- 42_timer_ramp.md R141. -/
theorem writeTctrl_ok {w : Word} {s t : State} (h : writeTctrl w s = .ok t) :
    t = s ∨
      (s.timer.en = false ∧ s.genA.en = true ∧ s.timer.n ≠ 0#24 ∧
        t = { s with timer := { s.timer with en := true, tcnt := s.timer.n - 1#24 } }) ∨
      (s.timer.en = true ∧ t = { s with timer := { s.timer with en := false } }) := by
  unfold writeTctrl at h
  split at h
  · split at h
    · cases h
    · cases h
      rename_i hen _ hc
      simp only [not_or, Bool.not_eq_false] at hc
      exact .inr (.inl ⟨hen, hc.1, hc.2, rfl⟩)
  · cases h; exact .inr (.inr ⟨‹_›, rfl⟩)
  · cases h; exact .inl rfl
  · cases h; exact .inl rfl

/-- 42_timer_ramp.md R142. -/
theorem writeTreload_ok {w : Word} {s t : State} (h : writeTreload w s = .ok t) :
    t = s ∨ (s.timer.en = false ∧ (w.setWidth 24 : Count24) ≠ 0#24 ∧
      t = { s with timer := { s.timer with n := w.setWidth 24 } }) := by
  unfold writeTreload at h
  split at h
  · split at h
    · cases h; exact .inl rfl
    · cases h
  · split at h
    · cases h
    · cases h
      rename_i hen hr
      rw [not_or] at hr
      exact .inr ⟨by simpa using hen, setWidth24_ne_zero w hr.1 hr.2, rfl⟩

/-! The code a rule raises does not depend on the error record (60_exceptions.md R182). -/

theorem writeClkcfg_error_any_record {w : Word} {s : State} {c : ErrCode} (e : ErrorStatus)
    (h : writeClkcfg w s = .error c) : writeClkcfg w { s with err := e } = .error c := by
  revert h; unfold writeClkcfg; split_ifs <;> simp

theorem writeCtrl_error_any_record {g : GenId} {w : Word} {s : State} {c : ErrCode} (e : ErrorStatus)
    (h : writeCtrl g w s = .error c) : writeCtrl g w { s with err := e } = .error c := by
  revert h
  cases g <;> unfold writeCtrl <;> dsimp only [genOf] <;> split <;> (try split_ifs) <;> simp

theorem writePeriod_error_any_record {g : GenId} {w : Word} {s : State} {c : ErrCode}
    (e : ErrorStatus) (h : writePeriod g w s = .error c) :
    writePeriod g w { s with err := e } = .error c := by
  revert h; cases g <;> unfold writePeriod <;> dsimp only [genOf] <;> split_ifs <;> simp

theorem writeDuty_error_any_record {g : GenId} {w : Word} {s : State} {c : ErrCode} (e : ErrorStatus)
    (h : writeDuty g w s = .error c) : writeDuty g w { s with err := e } = .error c := by
  revert h; cases g <;> unfold writeDuty <;> dsimp only [genOf] <;> split_ifs <;> simp

theorem writeTctrl_error_any_record {w : Word} {s : State} {c : ErrCode} (e : ErrorStatus)
    (h : writeTctrl w s = .error c) : writeTctrl w { s with err := e } = .error c := by
  revert h; unfold writeTctrl; dsimp only; split <;> (try split_ifs) <;> simp

theorem writeTreload_error_any_record {w : Word} {s : State} {c : ErrCode} (e : ErrorStatus)
    (h : writeTreload w s = .error c) : writeTreload w { s with err := e } = .error c := by
  revert h; unfold writeTreload; dsimp only; split_ifs <;> simp

/-- A write whose rule raises a code answers that code's bus error. -/
theorem performWrite_of_error {r : Reg} {w : Word} {rule : Word → State → Except ErrCode State}
    {s : State} {c : ErrCode} (h : rule w s = .error c) :
    performWrite r w rule s = .next (busError c ⟨writeWord r, w⟩ s) := by
  simp [performWrite, h]

/-- A write answers OKAY with its rule's accepted state, or ERROR with the code its rule raises; it
always answers a next state (60_exceptions.md R180). -/
theorem performWrite_cases (r : Reg) (w : Word) (rule : Word → State → Except ErrCode State)
    (s : State) :
    (∃ t, rule w s = .ok t ∧ performWrite r w rule s = .next (respondOkay 0#32 t)) ∨
      (∃ code, rule w s = .error code ∧
        performWrite r w rule s = .next (busError code ⟨writeWord r, w⟩ s)) := by
  unfold performWrite
  cases hr : rule w s with
  | ok t => exact .inl ⟨t, rfl, rfl⟩
  | error code => exact .inr ⟨code, rfl, rfl⟩

/-- Every read operation is the read of its register. -/
theorem exec_readOp (r : Reg) (s : State) : exec (readOp r) s = performRead r s := by cases r <;> rfl

theorem exec_wrClkcfg (w : Word) (s : State) :
    exec (.wrClkcfg w) s = performWrite .clkcfg w writeClkcfg s := rfl
theorem exec_wrACtrl (w : Word) (s : State) :
    exec (.wrACtrl w) s = performWrite .aCtrl w (writeCtrl .a) s := rfl
theorem exec_wrAPeriod (w : Word) (s : State) :
    exec (.wrAPeriod w) s = performWrite .aPeriod w (writePeriod .a) s := rfl
theorem exec_wrADuty (w : Word) (s : State) :
    exec (.wrADuty w) s = performWrite .aDuty w (writeDuty .a) s := rfl
theorem exec_wrBCtrl (w : Word) (s : State) :
    exec (.wrBCtrl w) s = performWrite .bCtrl w (writeCtrl .b) s := rfl
theorem exec_wrBPeriod (w : Word) (s : State) :
    exec (.wrBPeriod w) s = performWrite .bPeriod w (writePeriod .b) s := rfl
theorem exec_wrBDuty (w : Word) (s : State) :
    exec (.wrBDuty w) s = performWrite .bDuty w (writeDuty .b) s := rfl
theorem exec_wrTctrl (w : Word) (s : State) :
    exec (.wrTctrl w) s = performWrite .tctrl w writeTctrl s := rfl
theorem exec_wrTreload (w : Word) (s : State) :
    exec (.wrTreload w) s = performWrite .treload w writeTreload s := rfl

/-- A generator's writes, for either generator. -/
theorem exec_ctrlWrite (g : GenId) (w : Word) (s : State) :
    exec (ctrlWrite g w) s =
      performWrite (match g with | .a => .aCtrl | .b => .bCtrl) w (writeCtrl g) s := by
  cases g <;> rfl
theorem exec_periodWrite (g : GenId) (w : Word) (s : State) :
    exec (periodWrite g w) s =
      performWrite (match g with | .a => .aPeriod | .b => .bPeriod) w (writePeriod g) s := by
  cases g <;> rfl
theorem exec_dutyRegWrite (g : GenId) (w : Word) (s : State) :
    exec (dutyRegWrite g w) s =
      performWrite (match g with | .a => .aDuty | .b => .bDuty) w (writeDuty g) s := by
  cases g <;> rfl

/-- What a write's next state is: its rule's accepted state with an OKAY response, or the bus error of
the code its rule raises. -/
theorem performWrite_next {r : Reg} {w : Word} {rule : Word → State → Except ErrCode State}
    {s u : State} (h : performWrite r w rule s = .next u) :
    (∃ t, rule w s = .ok t ∧ u = respondOkay 0#32 t) ∨
      (∃ code, rule w s = .error code ∧ u = busError code ⟨writeWord r, w⟩ s) := by
  obtain ⟨t, ht, hp⟩ | ⟨code, hc, hp⟩ := performWrite_cases r w rule s
  · rw [hp] at h; cases h; exact .inl ⟨t, ht, rfl⟩
  · rw [hp] at h; cases h; exact .inr ⟨code, hc, rfl⟩

end Sys2Proof.Machine
end

