-- ==== Sys2Proof/Laws/Values.lean ====
section
/-! SUPPORT. The values of the shared operations as numbers: the clamp, the saturating count, the
counters. -/

namespace Sys2Proof.Machine

theorem clampDuty_toNat (v : Word) (p : Count16) :
    (clampDuty v p).toNat = min v.toNat p.toNat := by
  unfold clampDuty
  split
  · rename_i h
    rw [BitVec.toNat_setWidth, Nat.mod_eq_of_lt (by have := p.isLt; omega), Nat.min_eq_left h]
  · rename_i h
    rw [Nat.min_eq_right (by omega)]

theorem clampDuty_le (v : Word) (p : Count16) : (clampDuty v p).toNat ≤ p.toNat := by
  rw [clampDuty_toNat]; exact Nat.min_le_right _ _

/-- Clamping a clamped duty again changes nothing: a second write of the same data stores the same. -/
theorem clampDuty_zext (x p : Count16) (h : x.toNat ≤ p.toNat) : clampDuty (x.setWidth 32) p = x := by
  apply BitVec.eq_of_toNat_eq
  rw [clampDuty_toNat, BitVec.toNat_setWidth, Nat.mod_eq_of_lt (by have := x.isLt; omega)]
  exact Nat.min_eq_left h

theorem errorCapture_count (code : ErrCode) (rq : Request) (e : ErrorStatus) :
    (errorCapture code rq e).count.toNat = min (e.count.toNat + 1) 255 := by
  have hlt := e.count.isLt
  unfold errorCapture
  dsimp only
  split
  · rename_i h; rw [h]; decide
  · rename_i h
    have hne : e.count.toNat ≠ 255 := fun h' => h (BitVec.eq_of_toNat_eq (by rw [h']; rfl))
    have h1 : (e.count + 1#8).toNat = (e.count.toNat + 1) % 2 ^ 8 := BitVec.toNat_add _ _
    omega

theorem errorCapture_code (code : ErrCode) (rq : Request) (e : ErrorStatus) :
    (errorCapture code rq e).code = if e.code = 0#4 then errCodeNum code else e.code := rfl

theorem errCodeNum_ne_zero (code : ErrCode) : errCodeNum code ≠ 0#4 := by cases code <;> decide

theorem errCodeNum_le (code : ErrCode) : (errCodeNum code).toNat ≤ 7 := by cases code <;> decide

@[simp] theorem dutyWrite_en (v : Word) (g : Generator) : (dutyWrite v g).en = g.en := rfl
@[simp] theorem dutyWrite_period (v : Word) (g : Generator) : (dutyWrite v g).period = g.period := rfl
@[simp] theorem dutyWrite_cnt (v : Word) (g : Generator) : (dutyWrite v g).cnt = g.cnt := rfl
@[simp] theorem dutyWrite_shd (v : Word) (g : Generator) :
    (dutyWrite v g).shd = clampDuty v g.period := rfl

/-- While the generator runs, DutyWrite leaves the active duty alone (41_pwm_generator.md R115). -/
theorem dutyWrite_act_running (v : Word) (g : Generator) (h : g.en = true) :
    (dutyWrite v g).act = g.act := by simp [dutyWrite, h]

/-- While the generator is stopped, the value is active at once (41_pwm_generator.md R115). -/
theorem dutyWrite_act_stopped (v : Word) (g : Generator) (h : g.en = false) :
    (dutyWrite v g).act = (dutyWrite v g).shd := by simp [dutyWrite, h]

/-- Writing the same value twice is writing it once. -/
@[simp] theorem dutyWrite_dutyWrite (v : Word) (g : Generator) :
    dutyWrite v (dutyWrite v g) = dutyWrite v g := by
  obtain ⟨en, period, shd, act, cnt⟩ := g
  cases en <;> rfl

theorem divisor_pos (c : Clock) : 0 < divisor c := Nat.pos_of_ne_zero (by simp [divisor])

/-- D is at most 32768 (10_state.md R26), so psc + 1 never wraps below D. -/
theorem divisor_le (c : Clock) : divisor c ≤ 32768 := by
  have h : c.divlog2.toNat ≤ 15 := by have := c.divlog2.isLt; omega
  calc divisor c = 2 ^ c.divlog2.toNat := rfl
    _ ≤ 2 ^ 15 := Nat.pow_le_pow_right (by decide) h

@[simp] theorem countClock_diven (c : Clock) : (countClock c).diven = c.diven := by
  unfold countClock; split <;> rfl
@[simp] theorem countClock_divlog2 (c : Clock) : (countClock c).divlog2 = c.divlog2 := by
  unfold countClock; split <;> rfl
@[simp] theorem divisor_countClock (c : Clock) : divisor (countClock c) = divisor c := by
  simp [divisor]

@[simp] theorem countGenerator_en (k : Bool) (g : Generator) : (countGenerator k g).en = g.en := by
  unfold countGenerator periodBoundary; split
  · split <;> rfl
  · rfl
@[simp] theorem countGenerator_period (k : Bool) (g : Generator) :
    (countGenerator k g).period = g.period := by
  unfold countGenerator periodBoundary; split
  · split <;> rfl
  · rfl
@[simp] theorem countGenerator_shd (k : Bool) (g : Generator) :
    (countGenerator k g).shd = g.shd := by
  unfold countGenerator periodBoundary; split
  · split <;> rfl
  · rfl

/-- A stopped generator ignores the tick (41_pwm_generator.md R124). -/
theorem countGenerator_stopped (k : Bool) (g : Generator) (h : g.en = false) :
    countGenerator k g = g := by simp [countGenerator, h]

@[simp] theorem countTimer_en (t : Timer) : (countTimer t).en = t.en := by
  unfold countTimer; split <;> rfl
@[simp] theorem countTimer_n (t : Timer) : (countTimer t).n = t.n := by
  unfold countTimer; split <;> rfl

theorem countTimer_stopped (t : Timer) (h : t.en = false) : countTimer t = t := by
  simp [countTimer, h]

/-- A concatenation as a number. -/
theorem append_toNat {w v : Nat} (x : BitVec w) (y : BitVec v) :
    (x ++ y).toNat = x.toNat * 2 ^ v + y.toNat := by
  rw [BitVec.toNat_append, Nat.shiftLeft_eq, Nat.mul_comm, Nat.two_pow_add_eq_or_of_lt y.isLt]

/-- CLKCFG as a number (40_clock_config.md R100). -/
theorem clkcfgWord_toNat (c : Clock) :
    (clkcfgWord c).toNat = c.diven.toNat + 16 * c.divlog2.toNat := by
  have h := c.divlog2.isLt
  unfold clkcfgWord
  rw [BitVec.toNat_setWidth, append_toNat, append_toNat]
  cases c.diven <;> simp <;> omega

/-- ERRSTAT as a number (43_error_status.md R171). -/
theorem errstatWord_toNat (e : ErrorStatus) :
    (errstatWord e).toNat = 65536 * e.req.toNat + 256 * e.count.toNat + e.code.toNat := by
  unfold errstatWord
  rw [append_toNat, append_toNat, append_toNat]
  simp only [BitVec.toNat_ofNat]
  omega

/-- A flag's word as a number. -/
theorem flagWord_eq (b : Bool) : flagWord b = BitVec.ofNat 32 b.toNat := by cases b <;> rfl

/-- The ramp engine increments elapsed_ms whatever else it does (42_timer_ramp.md R151). -/
theorem rampAdvance_elapsed (cmp : WrapCmp) (r : Ramp) :
    (rampAdvance cmp r).elapsedMs = r.elapsedMs + 1#32 := by
  unfold rampAdvance rampUp rampDown
  dsimp only
  split
  · split
    · rfl
    · split <;> rfl
  · rfl

end Sys2Proof.Machine
end

