-- ==== Sys2Proof/Laws/Access.lean ====
section
/-! SUPPORT. Everything the host's part of a cycle can do to the state, said once: every outcome of
`perform` is one of the effects below, so a property of all transactions is a case analysis on them. -/

namespace Sys2Proof.Machine

/-- The effects of phase 3's host part: no transaction, an accepted transaction that changes no
register, an error, and one case per write that changes registers, with the conditions its rule
checks. -/
inductive Effect (s : State) : State → Prop
  | idle : Effect s s
  | answered (v : Word) : Effect s (respondOkay v s)
  | errored (code : ErrCode) (rq : Request) : Effect s (busError code rq s)
  | clkcfg (en : Bool) (dl : BitVec 4) (ha : s.genA.en = false) (hb : s.genB.en = false) :
      Effect s (respondOkay 0#32 { s with clk := { diven := en, divlog2 := dl, psc := 0#16 } })
  | start (g : GenId) (hen : (genOf g s).en = false) (hdiv : s.clk.diven = true)
      (hper : (genOf g s).period ≠ 0#16) :
      Effect s (respondOkay 0#32 (setGen g
        { genOf g s with en := true, cnt := (genOf g s).period - 1#16, act := (genOf g s).shd } s))
  | period (g : GenId) (p : Count16) (hen : (genOf g s).en = false) (hp : p ≠ 0#16) :
      Effect s (respondOkay 0#32 (setGen g
        { genOf g s with
          period := p
          shd := if (genOf g s).shd ≤ p then (genOf g s).shd else p
          act := if (genOf g s).shd ≤ p then (genOf g s).shd else p } s))
  | duty (g : GenId) (v : Word) (hper : (genOf g s).period ≠ 0#16) :
      Effect s (respondOkay 0#32 (setGen g (dutyWrite v (genOf g s)) s))
  | timerStart (hen : s.timer.en = false) (ha : s.genA.en = true) (hn : s.timer.n ≠ 0#24) :
      Effect s (respondOkay 0#32 { s with timer := { s.timer with en := true, tcnt := s.timer.n - 1#24 } })
  | timerStop (hen : s.timer.en = true) :
      Effect s (respondOkay 0#32 { s with timer := { s.timer with en := false } })
  | reload (n : Count24) (hen : s.timer.en = false) (hn : n ≠ 0#24) :
      Effect s (respondOkay 0#32 { s with timer := { s.timer with n := n } })

theorem performRead_effect (r : Reg) (s : State) :
    ∃ t, performRead r s = .next t ∧ Effect s t := ⟨_, rfl, .answered _⟩

/-- A write's outcome is an effect if its rule's accepted result is one. -/
theorem performWrite_effect (r : Reg) (w : Word) (rule : Word → State → Except ErrCode State)
    (s : State) (h : ∀ t, rule w s = .ok t → Effect s (respondOkay 0#32 t)) :
    ∃ t, performWrite r w rule s = .next t ∧ Effect s t := by
  obtain ⟨t, ht, hp⟩ | ⟨code, _, hp⟩ := performWrite_cases r w rule s
  · exact ⟨_, hp, h t ht⟩
  · exact ⟨_, hp, .errored _ _⟩

theorem writeClkcfg_effect (w : Word) (s t : State) (h : writeClkcfg w s = .ok t) :
    Effect s (respondOkay 0#32 t) := by
  obtain rfl | ⟨ha, hb, rfl⟩ := writeClkcfg_ok h
  · exact .answered 0#32
  · exact .clkcfg _ _ ha hb

theorem writeCtrl_effect (g : GenId) (w : Word) (s t : State) (h : writeCtrl g w s = .ok t) :
    Effect s (respondOkay 0#32 t) := by
  obtain rfl | ⟨hen, hdiv, hper, rfl⟩ := writeCtrl_ok h
  · exact .answered 0#32
  · exact .start g hen hdiv hper

theorem writePeriod_effect (g : GenId) (w : Word) (s t : State) (h : writePeriod g w s = .ok t) :
    Effect s (respondOkay 0#32 t) := by
  obtain rfl | ⟨hen, hp, rfl⟩ := writePeriod_ok h
  · exact .answered 0#32
  · exact .period g _ hen hp

theorem writeDuty_effect (g : GenId) (w : Word) (s t : State) (h : writeDuty g w s = .ok t) :
    Effect s (respondOkay 0#32 t) := by
  obtain ⟨hper, rfl⟩ := writeDuty_ok h
  exact .duty g w hper

theorem writeTctrl_effect (w : Word) (s t : State) (h : writeTctrl w s = .ok t) :
    Effect s (respondOkay 0#32 t) := by
  obtain rfl | ⟨hen, ha, hn, rfl⟩ | ⟨hen, rfl⟩ := writeTctrl_ok h
  · exact .answered 0#32
  · exact .timerStart hen ha hn
  · exact .timerStop hen

theorem writeTreload_effect (w : Word) (s t : State) (h : writeTreload w s = .ok t) :
    Effect s (respondOkay 0#32 t) := by
  obtain rfl | ⟨hen, hn, rfl⟩ := writeTreload_ok h
  · exact .answered 0#32
  · exact .reload _ hen hn

/-- Every operation answers a next state, by one of the effects. -/
theorem exec_effect (i : Instr) (s : State) : ∃ t, exec i s = .next t ∧ Effect s t := by
  cases i
  case wrClkcfg w => exact performWrite_effect _ w _ s (writeClkcfg_effect w s)
  case wrACtrl w => exact performWrite_effect _ w _ s (writeCtrl_effect .a w s)
  case wrAPeriod w => exact performWrite_effect _ w _ s (writePeriod_effect .a w s)
  case wrADuty w => exact performWrite_effect _ w _ s (writeDuty_effect .a w s)
  case wrBCtrl w => exact performWrite_effect _ w _ s (writeCtrl_effect .b w s)
  case wrBPeriod w => exact performWrite_effect _ w _ s (writePeriod_effect .b w s)
  case wrBDuty w => exact performWrite_effect _ w _ s (writeDuty_effect .b w s)
  case wrTctrl w => exact performWrite_effect _ w _ s (writeTctrl_effect w s)
  case wrTreload w => exact performWrite_effect _ w _ s (writeTreload_effect w s)
  all_goals exact performRead_effect _ s

/-- The host's part of phase 3 always answers a next state, by one of the effects. -/
theorem perform_effect (req : Option Request) (s : State) :
    ∃ t, perform req s = .next t ∧ Effect s t := by
  unfold perform
  split
  · exact ⟨s, rfl, .idle⟩
  · split
    · exact ⟨_, rfl, .errored _ _⟩
    · exact exec_effect _ s

end Sys2Proof.Machine
end

