-- ==== Sys2Proof/Laws/Cycle.lean ====
section
/-! SUPPORT. What one step can be, said once: a reset cycle, or phase 2, then the host's effect and the
ramp step in one of the two orders, then the output levels. -/

namespace Sys2Proof.Machine

/-- A step of a cycle with RST high. -/
theorem step_reset (s : State) (h : (cycleInput s).rst = true) :
    step s = .next (resetBlock (spendInput s)) := by
  simp [step, stepCycle, cycle, h]

/-- A step of a cycle with RST low is the cycle step on its inputs. -/
theorem step_run (s : State) (h : (cycleInput s).rst = false) :
    step s = runCycle (cycleInput s) (spendInput s) := by
  simp [step, stepCycle, cycle, h]

theorem step_decideInput (i : CycleInput) (s : State) : step (decideInput i s) = cycle i s := rfl

/-- A cycle with RST low: the host's effect first, or the ramp step first. -/
theorem runCycle_cases (i : CycleInput) (s : State) :
    (i.order = .busFirst ∧ ∃ u, perform i.request (countersPhase s) = .next u ∧
        Effect (countersPhase s) u ∧
        runCycle i s = .next (driveOutputs (rampPhase (timerTick s.timer) u))) ∨
      (i.order = .rampFirst ∧
        ∃ u, perform i.request (rampPhase (timerTick s.timer) (countersPhase s)) = .next u ∧
        Effect (rampPhase (timerTick s.timer) (countersPhase s)) u ∧
        runCycle i s = .next (driveOutputs u)) := by
  cases ho : i.order
  · obtain ⟨u, hu, he⟩ := perform_effect i.request (countersPhase s)
    exact .inl ⟨rfl, u, hu, he, by simp [runCycle, accessPhase, ho, hu]⟩
  · obtain ⟨u, hu, he⟩ := perform_effect i.request (rampPhase (timerTick s.timer) (countersPhase s))
    exact .inr ⟨rfl, u, hu, he, by simp [runCycle, accessPhase, ho, hu]⟩

/-- What one step can be. Either the cycle has RST high and the block is reset; or RST is low, and from
the state c after phase 2 the host's effect leads to u with the ramp step after it (BUS_FIRST) or before
it (RAMP_FIRST), and the output levels follow. -/
theorem step_cases {s t : State} (h : step s = .next t) :
    ((cycleInput s).rst = true ∧ t = resetBlock (spendInput s)) ∨
      ((cycleInput s).rst = false ∧ ∃ u,
        ((cycleInput s).order = .busFirst ∧
          perform (cycleInput s).request (countersPhase (spendInput s)) = .next u ∧
          Effect (countersPhase (spendInput s)) u ∧
          t = driveOutputs (rampPhase (timerTick s.timer) u)) ∨
        ((cycleInput s).order = .rampFirst ∧
          perform (cycleInput s).request
            (rampPhase (timerTick s.timer) (countersPhase (spendInput s))) = .next u ∧
          Effect (rampPhase (timerTick s.timer) (countersPhase (spendInput s))) u ∧
          t = driveOutputs u)) := by
  cases hr : (cycleInput s).rst
  · rw [step_run s hr] at h
    refine .inr ⟨rfl, ?_⟩
    obtain ⟨ho, u, hu, he, hrun⟩ | ⟨ho, u, hu, he, hrun⟩ := runCycle_cases (cycleInput s) (spendInput s)
    · rw [hrun] at h; cases h
      exact ⟨u, .inl ⟨ho, hu, he, by simp⟩⟩
    · rw [hrun] at h; cases h
      exact ⟨u, .inr ⟨ho, by simpa using hu, by simpa using he, rfl⟩⟩
  · rw [step_reset s hr] at h; cases h
    exact .inl ⟨rfl, rfl⟩

end Sys2Proof.Machine
end

