-- ==== Sys2Proof/Laws/Decoding.lean ====
section
/-! SUPPORT. The fields of the request words, and what the decoder reads from the words of a mapped
register. -/

namespace Sys2Proof

/-- The map of 10_state.md R25 is one to one: the register found at an offset is the one whose offset it
is. -/
theorem regAt_eq_some (off : Offset) (r : Reg) : regAt off = some r ↔ off = regOffset r := by
  constructor
  · intro h
    have h' := List.find?_some h
    exact (beq_iff_eq.mp h').symm
  · rintro rfl; cases r <;> rfl

theorem regOffset_injective {r r' : Reg} (h : regOffset r = regOffset r') : r = r' := by
  have h1 := (regAt_eq_some _ r').mpr h
  rw [(regAt_eq_some _ r).mpr rfl] at h1
  exact Option.some.inj h1

theorem regOffset_aligned (r : Reg) : (regOffset r).extractLsb' 0 2 = 0#2 := by cases r <;> rfl

@[simp] theorem reqSize_readWord (r : Reg) : reqSize (readWord r) = 2#2 := by cases r <;> rfl
@[simp] theorem reqX_readWord (r : Reg) : reqX (readWord r) = false := by cases r <;> rfl
@[simp] theorem reqWe_readWord (r : Reg) : reqWe (readWord r) = false := by cases r <;> rfl
@[simp] theorem reqOffset_readWord (r : Reg) : reqOffset (readWord r) = regOffset r := by
  cases r <;> rfl
@[simp] theorem reqSize_writeWord (r : Reg) : reqSize (writeWord r) = 2#2 := by cases r <;> rfl
@[simp] theorem reqX_writeWord (r : Reg) : reqX (writeWord r) = false := by cases r <;> rfl
@[simp] theorem reqWe_writeWord (r : Reg) : reqWe (writeWord r) = true := by cases r <;> rfl
@[simp] theorem reqOffset_writeWord (r : Reg) : reqOffset (writeWord r) = regOffset r := by
  cases r <;> rfl

/-- The request word of a read decodes to the register's read. -/
theorem decode_readWord (r : Reg) (w : Word) : decode (readWord r) w = .op (readOp r) := by
  have h : regAt (regOffset r) = some r := (regAt_eq_some _ r).mpr rfl
  simp [decode, regOffset_aligned, h]

/-- The request word of a write decodes to the register's write, or to E_READONLY. -/
theorem decode_writeWord (r : Reg) (w : Word) :
    decode (writeWord r) w =
      match writeOp r w with
      | some i => .op i
      | none => .error .readOnly := by
  have h : regAt (regOffset r) = some r := (regAt_eq_some _ r).mpr rfl
  cases hw : writeOp r w <;> simp [decode, regOffset_aligned, h, hw]

/-- A request word is its four fields of 30_encoding.md R82. -/
theorem req_eq_fields (q : ReqWord) :
    q = (BitVec.ofBool (reqWe q) ++ reqSize q ++ BitVec.ofBool (reqX q) ++ reqOffset q : BitVec 16) := by
  apply BitVec.eq_of_getLsbD_eq
  intro k hk
  simp only [BitVec.getLsbD_append, reqWe, reqSize, reqX, reqOffset]
  interval_cases k <;> simp

/-- A word access to the offset of a register, with X = 0, is that register's read or write word. -/
theorem req_eq_word (q : ReqWord) (r : Reg) (hs : reqSize q = 2#2) (hx : reqX q = false)
    (ho : reqOffset q = regOffset r) : q = if reqWe q then writeWord r else readWord r := by
  have h := req_eq_fields q
  rw [hs, hx, ho] at h
  cases hw : reqWe q
  · rw [hw] at h
    rw [h]; cases r <;> rfl
  · rw [hw] at h
    rw [h]; cases r <;> rfl

end Sys2Proof
end

