-- ==== Sys2Proof/Laws/Effects.lean ====
section
/-! SUPPORT. The frame of the host's effect and of the ramp step, field by field: the facts from which
the whole-machine rules are assembled. -/

namespace Sys2Proof.Machine

theorem Effect.ramp_eq {s u : State} (h : Effect s u) : u.ramp = s.ramp := by cases h <;> simp
theorem Effect.params_eq {s u : State} (h : Effect s u) : u.params = s.params := by cases h <;> simp
theorem Effect.inputs_eq {s u : State} (h : Effect s u) : u.inputs = s.inputs := by cases h <;> simp
theorem Effect.drawn_eq {s u : State} (h : Effect s u) : u.drawn = s.drawn := by cases h <;> simp

@[simp] theorem genOf_respondOkay (g : GenId) (v : Word) (s : State) :
    genOf g (respondOkay v s) = genOf g s := by cases g <;> rfl
@[simp] theorem genOf_busError (g : GenId) (c : ErrCode) (rq : Request) (s : State) :
    genOf g (busError c rq s) = genOf g s := by cases g <;> rfl
@[simp] theorem genOf_driveOutputs (g : GenId) (s : State) :
    genOf g (driveOutputs s) = genOf g s := by cases g <;> rfl
@[simp] theorem genOf_countersPhase (g : GenId) (s : State) :
    genOf g (countersPhase s) = countGenerator (pwmTick s.clk) (genOf g s) := by cases g <;> rfl
@[simp] theorem genOf_spendInput (g : GenId) (s : State) :
    genOf g (spendInput s) = genOf g s := by cases g <;> simp
@[simp] theorem genOf_setGen_same (g : GenId) (x : Generator) (s : State) :
    genOf g (setGen g x s) = x := by cases g <;> rfl
theorem genOf_setGen_other {g g' : GenId} (h : g' ≠ g) (x : Generator) (s : State) :
    genOf g' (setGen g x s) = genOf g' s := by
  cases g <;> cases g' <;> first | rfl | exact absurd rfl h
@[simp] theorem genOf_with_clk (g : GenId) (s : State) (c : Clock) :
    genOf g { s with clk := c } = genOf g s := by cases g <;> rfl
@[simp] theorem genOf_with_timer (g : GenId) (s : State) (x : Timer) :
    genOf g { s with timer := x } = genOf g s := by cases g <;> rfl

/-- The host's effect leaves a running generator running, at the same count, period and active duty:
only its shadow may change (41_pwm_generator.md R116, R118, R123). -/
theorem Effect.running {s u : State} (h : Effect s u) (g : GenId) (hg : (genOf g s).en = true) :
    (genOf g u).en = true ∧ (genOf g u).cnt = (genOf g s).cnt ∧
      (genOf g u).period = (genOf g s).period ∧ (genOf g u).act = (genOf g s).act := by
  cases h with
  | start g' hen _ _ =>
    have hne : g ≠ g' := fun e => by subst e; simp [hen] at hg
    simp [genOf_setGen_other hne, hg]
  | period g' p hen _ =>
    have hne : g ≠ g' := fun e => by subst e; simp [hen] at hg
    simp [genOf_setGen_other hne, hg]
  | duty g' v _ =>
    by_cases he : g = g'
    · subst he; simp [hg, dutyWrite_act_running]
    · simp [genOf_setGen_other he, hg]
  | _ => simp [hg]

/-- A generator that the host's effect leaves stopped keeps its count (41_pwm_generator.md R124). -/
theorem Effect.stopped {s u : State} (h : Effect s u) (g : GenId) (hg : (genOf g u).en = false) :
    (genOf g s).en = false ∧ (genOf g u).cnt = (genOf g s).cnt := by
  cases h with
  | start g' hen _ _ =>
    by_cases he : g = g'
    · subst he; simp at hg
    · simp [genOf_setGen_other he] at hg ⊢; exact hg
  | period g' p hen _ =>
    by_cases he : g = g'
    · subst he; simp at hg ⊢; exact hg
    · simp [genOf_setGen_other he] at hg ⊢; exact hg
  | duty g' v _ =>
    by_cases he : g = g'
    · subst he; simp at hg ⊢; exact hg
    · simp [genOf_setGen_other he] at hg ⊢; exact hg
  | _ => simp at hg ⊢; exact hg

/-- While a generator runs the host's effect leaves the clock alone (40_clock_config.md R101). -/
theorem Effect.clk_running {s u : State} (h : Effect s u) (g : GenId) (hg : (genOf g s).en = true) :
    u.clk = s.clk := by
  cases h with
  | clkcfg en dl ha hb => cases g <;> simp_all
  | _ => simp

/-- A running timer keeps its count and its reload (42_timer_ramp.md R141, R142). -/
theorem Effect.timer_running {s u : State} (h : Effect s u) (hs : s.timer.en = true) :
    u.timer.tcnt = s.timer.tcnt ∧ u.timer.n = s.timer.n := by
  cases h <;> simp_all

/-- The host's effect on a stopped timer: it stays stopped at its count, or it is started. -/
theorem Effect.timer_stopped {s u : State} (h : Effect s u) (hs : s.timer.en = false) :
    (u.timer.en = false ∧ u.timer.tcnt = s.timer.tcnt) ∨
      (u.timer = { en := true, n := s.timer.n, tcnt := s.timer.n - 1#24 } ∧ s.timer.n ≠ 0#24 ∧
        s.genA.en = true) := by
  cases h <;> simp_all

/-- The host's effect on the error record: none with an OKAY response, one capture with an ERROR. -/
theorem Effect.error_record {s u : State} (h : Effect s u) (hs : s.out.resp = .okay) :
    (u.out.resp = .okay ∧ u.err = s.err) ∨
      (u.out.resp = .error ∧ ∃ code rq, u.err = errorCapture code rq s.err) := by
  cases h with
  | errored code rq => exact .inr ⟨rfl, code, rq, rfl⟩
  | _ => simp_all

/-- The ramp step on a running generator A: its count, period, active duty and EN stay. -/
theorem rampPhase_running (tick : Bool) (s : State) (g : GenId) (hg : (genOf g s).en = true) :
    (genOf g (rampPhase tick s)).en = true ∧
      (genOf g (rampPhase tick s)).cnt = (genOf g s).cnt ∧
      (genOf g (rampPhase tick s)).period = (genOf g s).period ∧
      (genOf g (rampPhase tick s)).act = (genOf g s).act := by
  cases g
  · cases tick
    · simp_all
    · simp only [genOf_a] at hg
      simp only [rampPhase_true, genOf_a, rampStep_genA]
      split <;> simp [hg, dutyWrite_act_running]
  · simp_all

/-- The ramp step never touches EN, PERIOD or CNT of a generator (42_timer_ramp.md R154). -/
theorem rampPhase_gen (tick : Bool) (s : State) (g : GenId) :
    (genOf g (rampPhase tick s)).en = (genOf g s).en ∧
      (genOf g (rampPhase tick s)).cnt = (genOf g s).cnt ∧
      (genOf g (rampPhase tick s)).period = (genOf g s).period := by
  cases g
  · cases tick
    · simp
    · simp only [rampPhase_true, genOf_a, rampStep_genA]
      split <;> simp
  · simp

@[simp] theorem rampPhase_ramp (tick : Bool) (s : State) :
    (rampPhase tick s).ramp = if tick then rampAdvance s.params.wrapCmp s.ramp else s.ramp := by
  cases tick <;> rfl

/-- An error leaves the rest of its cycle alone: the ramp step and the levels after it are those without
it, with the capture and the error response beside them (60_exceptions.md R180). -/
theorem driveOutputs_rampPhase_busError (c : ErrCode) (rq : Request) (tick : Bool) (s : State) :
    driveOutputs (rampPhase tick (busError c rq s)) =
      { driveOutputs (rampPhase tick s) with
        err := errorCapture c rq s.err
        out := { (driveOutputs (rampPhase tick s)).out with resp := .error, rdata := 0#32 } } := by
  cases tick <;> rfl

end Sys2Proof.Machine
end

