-- ==== Sys2Proof/Laws/PerInstr.lean ====
section
/-! SUPPORT. The form of every operation's transaction (30_encoding.md R81 to R84, R88), one lemma per
constructor of Instr. -/

namespace Sys2Proof.Laws.Encoding

/-- The transaction of an operation in the fields of 30_encoding.md R82: the operation is well formed,
SIZE is 2, X is 0, WE says whether it is a write, OFFSET is word aligned and is the offset of a register
whose operation it is, and a read carries no data. -/
def Statement (i : Instr) : Prop :=
  i.wellFormed = true ∧
    reqSize (encode i).req = 2#2 ∧ reqX (encode i).req = false ∧
    reqWe (encode i).req = isWrite i ∧
    (reqOffset (encode i).req).extractLsb' 0 2 = 0#2 ∧
    (isWrite i = false → (encode i).wdata = 0#32) ∧
    ∃ r : Reg, regAt (reqOffset (encode i).req) = some r ∧
      (if isWrite i then writeOp r (encode i).wdata = some i else readOp r = i)

/-- The read of a register has the form. -/
theorem of_read (r : Reg) (h : encode (readOp r) = ⟨readWord r, 0#32⟩) : Statement (readOp r) := by
  have hw : isWrite (readOp r) = false := by cases r <;> rfl
  refine ⟨by cases r <;> rfl, ?_, ?_, ?_, ?_, fun _ => by rw [h], r, ?_, ?_⟩
  · simp [h]
  · simp [h]
  · simp [h, hw]
  · simp [h, regOffset_aligned]
  · simp [h, regAt_eq_some]
  · simp [hw]

/-- The write of a register has the form. -/
theorem of_write (r : Reg) (w : Word) (i : Instr) (hi : writeOp r w = some i)
    (h : encode i = ⟨writeWord r, w⟩) (hw : isWrite i = true) : Statement i := by
  refine ⟨by cases i <;> rfl, ?_, ?_, ?_, ?_, ?_, r, ?_, ?_⟩
  · simp [h]
  · simp [h]
  · simp [h, hw]
  · simp [h, regOffset_aligned]
  · simp [hw]
  · simp [h, regAt_eq_some]
  · simp [h, hw, hi]

theorem rdClkcfg : Statement .rdClkcfg := of_read .clkcfg rfl
theorem wrClkcfg (w : Word) : Statement (.wrClkcfg w) := of_write .clkcfg w _ rfl rfl rfl
theorem rdACtrl : Statement .rdACtrl := of_read .aCtrl rfl
theorem wrACtrl (w : Word) : Statement (.wrACtrl w) := of_write .aCtrl w _ rfl rfl rfl
theorem rdAPeriod : Statement .rdAPeriod := of_read .aPeriod rfl
theorem wrAPeriod (w : Word) : Statement (.wrAPeriod w) := of_write .aPeriod w _ rfl rfl rfl
theorem rdADuty : Statement .rdADuty := of_read .aDuty rfl
theorem wrADuty (w : Word) : Statement (.wrADuty w) := of_write .aDuty w _ rfl rfl rfl
theorem rdADutyact : Statement .rdADutyact := of_read .aDutyact rfl
theorem rdACount : Statement .rdACount := of_read .aCount rfl
theorem rdBCtrl : Statement .rdBCtrl := of_read .bCtrl rfl
theorem wrBCtrl (w : Word) : Statement (.wrBCtrl w) := of_write .bCtrl w _ rfl rfl rfl
theorem rdBPeriod : Statement .rdBPeriod := of_read .bPeriod rfl
theorem wrBPeriod (w : Word) : Statement (.wrBPeriod w) := of_write .bPeriod w _ rfl rfl rfl
theorem rdBDuty : Statement .rdBDuty := of_read .bDuty rfl
theorem wrBDuty (w : Word) : Statement (.wrBDuty w) := of_write .bDuty w _ rfl rfl rfl
theorem rdBDutyact : Statement .rdBDutyact := of_read .bDutyact rfl
theorem rdBCount : Statement .rdBCount := of_read .bCount rfl
theorem rdTctrl : Statement .rdTctrl := of_read .tctrl rfl
theorem wrTctrl (w : Word) : Statement (.wrTctrl w) := of_write .tctrl w _ rfl rfl rfl
theorem rdTreload : Statement .rdTreload := of_read .treload rfl
theorem wrTreload (w : Word) : Statement (.wrTreload w) := of_write .treload w _ rfl rfl rfl
theorem rdTcount : Statement .rdTcount := of_read .tcount rfl
theorem rdErrstat : Statement .rdErrstat := of_read .errstat rfl
theorem rdErrdata : Statement .rdErrdata := of_read .errdata rfl

end Sys2Proof.Laws.Encoding
end

