-- ==== Sys2Proof/Tests/Slice0.lean ====
section
/-! SUPPORT. Tests of one step or one operation each, with the expected results of 95_test_vectors.md
and of the rules' examples, and a witness for the hypotheses of each statement of Obligations.lean. -/

namespace Sys2Proof.Tests

open Sys2Proof.Machine

/-! ## Small states -/

/-- The next state of an outcome. -/
def nextOf (o : Result) : Option State :=
  match o with
  | .next s => some s
  | .fault _ => none
  | .refused _ => none

/-- The next cycle has RST low and this request and order. -/
def go (request : Option Request) (order : Order) (s : State) : State :=
  decideInput { rst := false, request := request, order := order } s

/-- RESP and RDATA of an operation. -/
def answer (i : Instr) (s : State) : Option (Resp × Word) :=
  (nextOf (exec i s)).map (fun t => (t.out.resp, t.out.rdata))

/-- The error code an operation leaves in the record. -/
def codeOf (i : Instr) (s : State) : Option Nat :=
  (nextOf (exec i s)).map (fun t => t.err.code.toNat)

/-- CLKCFG = 0x41 and a prescaler. -/
def productClock (psc : BitVec 16) : Clock := { diven := true, divlog2 := 4#4, psc := psc }

/-- CLKCFG = 0x01: a PWM tick in every cycle. -/
def fastClock : Clock := { diven := true, divlog2 := 0#4, psc := 0#16 }

/-- A running generator with the product period. -/
def running (shd act cnt : Count16) : Generator :=
  { en := true, period := 62500#16, shd := shd, act := act, cnt := cnt }

/-- The start state of V-GEN-1 to V-GEN-9: CLKCFG 0x41, A running at 3125. -/
def aRuns : State :=
  { State.reset with clk := productClock 0#16, genA := running 3125#16 3125#16 62499#16 }

/-- The start state of V-GEN-10 to V-GEN-17: reset, CLKCFG 0x41. -/
def clockOnly : State := { State.reset with clk := productClock 0#16 }

/-- A running, the timer running with N = 50000. -/
def timerRuns (tcnt : Count24) : State :=
  { aRuns with timer := { en := true, n := 50000#24, tcnt := tcnt } }

/-- D = 1, A running with PERIOD = 4. -/
def wave (shd act cnt : Count16) : State :=
  { State.reset with
    clk := fastClock
    genA := { en := true, period := 4#16, shd := shd, act := act, cnt := cnt } }

/-- The launch states of V-RAMP: A running at PERIOD 62500, the timer at a tick. -/
def launch (elapsed duty : Word) (dir : Direction) : State :=
  { timerRuns 0#24 with ramp := { elapsedMs := elapsed, duty := duty, direction := dir } }

/-- The block after program P1's bring-up (cycle 8). -/
def afterBringup : State :=
  { State.reset with
    clk := productClock 8#16
    genA := running 3125#16 3125#16 62499#16
    genB := running 1875#16 1875#16 62499#16
    timer := { en := true, n := 50000#24, tcnt := 49999#24 }
    out := { resp := .okay, rdata := 0#32, pwmA := true, pwmB := true } }

/-- A recorded first error: V-ERR-1. -/
def oneError : State :=
  { State.reset with err := { code := 6#4, count := 1#8, req := 0xC040#16, data := 1#32 } }

/-! ## Well-formedness: one ill-formed term for each check -/

theorem test_wf_instr : Instr.wellFormed (.wrADuty 0xFFFFFFFF#32) = true := by decide
theorem test_wf_wr_value : (Line.wr .aDuty (2 ^ 32 - 1)).wellFormed = true ∧
    (Line.wr .aDuty (2 ^ 32)).wellFormed = false := by decide
theorem test_wf_raw_word : (Line.raw 0xFFFF none).wellFormed = true ∧
    (Line.raw 0x10000 none).wellFormed = false := by decide
theorem test_wf_raw_data : (Line.raw 0xC04C (some 7)).wellFormed = true ∧
    (Line.raw 0xC04C (some (2 ^ 32))).wellFormed = false := by decide
theorem test_wf_idle : (Line.idle 1).wellFormed = true ∧ (Line.idle 0).wellFormed = false := by decide
theorem test_wf_pwmInit : (Pseudo.pwmInit .a 62500 3125).wellFormed = true ∧
    (Pseudo.pwmInit .a (2 ^ 32) 0).wellFormed = false ∧
    (Pseudo.pwmInit .a 1 (2 ^ 32)).wellFormed = false := by decide
theorem test_wf_setDuty : (Pseudo.setDuty .b (2 ^ 32)).wellFormed = false := by decide
theorem test_wf_timerInit : (Pseudo.timerInit (2 ^ 32)).wellFormed = false := by decide
theorem test_wf_delayMs : (Pseudo.delayMs 0).wellFormed = false := by decide

/-! ## Decode: every operation from its word, written bit by bit as W SS X OFFSET (R82, R87) -/

theorem test_decode_clock :
    decode 0b0100000000000000#16 9#32 = .op .rdClkcfg ∧
    decode 0b1100000000000000#16 9#32 = .op (.wrClkcfg 9#32) := by decide
theorem test_decode_genA :
    decode 0b0100000001000000#16 9#32 = .op .rdACtrl ∧
    decode 0b1100000001000000#16 9#32 = .op (.wrACtrl 9#32) ∧
    decode 0b0100000001000100#16 9#32 = .op .rdAPeriod ∧
    decode 0b1100000001000100#16 9#32 = .op (.wrAPeriod 9#32) ∧
    decode 0b0100000001001000#16 9#32 = .op .rdADuty ∧
    decode 0b1100000001001000#16 9#32 = .op (.wrADuty 9#32) ∧
    decode 0b0100000001001100#16 9#32 = .op .rdADutyact ∧
    decode 0b0100000001010000#16 9#32 = .op .rdACount := by decide
theorem test_decode_genB :
    decode 0b0100000010000000#16 9#32 = .op .rdBCtrl ∧
    decode 0b1100000010000000#16 9#32 = .op (.wrBCtrl 9#32) ∧
    decode 0b0100000010000100#16 9#32 = .op .rdBPeriod ∧
    decode 0b1100000010000100#16 9#32 = .op (.wrBPeriod 9#32) ∧
    decode 0b0100000010001000#16 9#32 = .op .rdBDuty ∧
    decode 0b1100000010001000#16 9#32 = .op (.wrBDuty 9#32) ∧
    decode 0b0100000010001100#16 9#32 = .op .rdBDutyact ∧
    decode 0b0100000010010000#16 9#32 = .op .rdBCount := by decide
theorem test_decode_timer_and_errors :
    decode 0b0100000100000000#16 9#32 = .op .rdTctrl ∧
    decode 0b1100000100000000#16 9#32 = .op (.wrTctrl 9#32) ∧
    decode 0b0100000100000100#16 9#32 = .op .rdTreload ∧
    decode 0b1100000100000100#16 9#32 = .op (.wrTreload 9#32) ∧
    decode 0b0100000100001000#16 9#32 = .op .rdTcount ∧
    decode 0b0100000111110000#16 9#32 = .op .rdErrstat ∧
    decode 0b0100000111110100#16 9#32 = .op .rdErrdata := by decide

/-- V-DEC-1 to V-DEC-8, V-CLK-6. -/
theorem test_decode_errors :
    decode 0x4049#16 0#32 = .error .align ∧ decode 0x2048#16 0#32 = .error .width ∧
    decode 0x4014#16 0#32 = .error .unmapped ∧ decode 0xC04C#16 7#32 = .error .readOnly ∧
    decode 0x5048#16 0#32 = .error .unmapped ∧ decode 0x0049#16 0#32 = .error .width ∧
    decode 0xC1F0#16 0#32 = .error .readOnly ∧ decode 0x4FFC#16 0#32 = .error .unmapped ∧
    decode 0x8000#16 0x41#32 = .error .width := by decide

/-- The seven words of E_READONLY (R88), and SIZE = 3. -/
theorem test_decode_readOnly :
    decode 0xC050#16 0#32 = .error .readOnly ∧ decode 0xC08C#16 0#32 = .error .readOnly ∧
    decode 0xC090#16 0#32 = .error .readOnly ∧ decode 0xC108#16 5#32 = .error .readOnly ∧
    decode 0xC1F4#16 0#32 = .error .readOnly ∧ decode 0x6000#16 0#32 = .error .width := by decide

/-- R82's two examples, from the encoder. -/
theorem test_encode :
    encode (.wrADuty 7#32) = ⟨0xC048#16, 7#32⟩ ∧ encode .rdTcount = ⟨0x4108#16, 0#32⟩ := by decide

/-- The host's interface: REQ in bits 15:0, WDATA above it. -/
theorem test_table_word :
    decodeTableWord 16 0x4048 = some .rdADuty ∧ decodeTableWord 16 0xC048 = some (.wrADuty 0#32) ∧
    decodeTableWord 48 0x00000041C000 = some (.wrClkcfg 0x41#32) ∧
    decodeTableWord 16 0x4049 = none := by decide

/-- The very next step from reset performs the placed transaction: V-CLK-1. -/
theorem test_fetch_word :
    (nextOf (step (State.reset.withFetchWord 48 0x00000041C000))).map (fun t => (t.clk, t.out.resp)) =
      some (productClock 0#16, .okay) := by decide

/-! ## Operations -/

/-- R100's example, V-CLK-2. -/
theorem test_rd_clkcfg :
    answer .rdClkcfg { State.reset with clk := ⟨true, 15#4, 0#16⟩ } = some (.okay, 0xF1#32) := by decide
/-- V-CLK-2: the reserved bits are ignored. -/
theorem test_wr_clkcfg_reserved :
    (nextOf (exec (.wrClkcfg 0xFFFFFFFF#32) State.reset)).map (fun t => t.clk) =
      some ⟨true, 15#4, 0#16⟩ := by decide
/-- V-CLK-4: locked while A runs. -/
theorem test_wr_clkcfg_locked : codeOf (.wrClkcfg 1#32) aRuns = some 5 := by decide

/-- R111's example. -/
theorem test_rd_a_ctrl : answer .rdACtrl aRuns = some (.okay, 1#32) := by decide
/-- R118's example. -/
theorem test_wr_a_ctrl_start :
    (nextOf (exec (.wrACtrl 1#32)
      { clockOnly with genA := ⟨false, 62500#16, 3125#16, 0#16, 0#16⟩ })).map (fun t => t.genA) =
      some (running 3125#16 3125#16 62499#16) := by decide
/-- V-GEN-4. -/
theorem test_wr_a_ctrl_locked : codeOf (.wrACtrl 0#32) aRuns = some 5 := by decide
/-- R112: PERIOD reads zero-extended. -/
theorem test_rd_a_period : answer .rdAPeriod aRuns = some (.okay, 0xF424#32) := by decide
/-- V-GEN-2: E_LOCKED is checked before E_RANGE. -/
theorem test_wr_a_period_locked : codeOf (.wrAPeriod 0#32) aRuns = some 5 := by decide
/-- V-GEN-16: programmed without the clock. -/
theorem test_wr_a_period_stores :
    (nextOf (exec (.wrAPeriod 62500#32) State.reset)).map (fun t => (t.genA.period, t.out.resp)) =
      some (62500#16, .okay) := by decide
/-- V-GEN-6: the shadow duty, as clamped. -/
theorem test_rd_a_duty :
    answer .rdADuty { aRuns with genA := running 62500#16 3125#16 9#16 } =
      some (.okay, 0xF424#32) := by decide
/-- V-GEN-8: clamped, not truncated to 0. -/
theorem test_wr_a_duty_clamps :
    (nextOf (exec (.wrADuty 0x10000#32) aRuns)).map (fun t => (t.genA.shd, t.genA.act)) =
      some (62500#16, 3125#16) := by decide
/-- V-GEN-9: ACT waits for the boundary. -/
theorem test_wr_a_duty_shadow :
    (nextOf (exec (.wrADuty 18750#32) aRuns)).map (fun t => (t.genA.shd, t.genA.act)) =
      some (18750#16, 3125#16) := by decide
/-- V-GEN-9. -/
theorem test_rd_a_dutyact :
    answer .rdADutyact { aRuns with genA := running 18750#16 3125#16 9#16 } =
      some (.okay, 0x0C35#32) := by decide
/-- V-GEN-17: a read in the cycle after the enable, without a PWM tick. -/
theorem test_rd_a_count :
    (nextOf (step (go (some (readRequest .aCount)) .busFirst aRuns))).map (fun t => t.out.rdata) =
      some 0xF423#32 := by decide

/-- R111: bits 31:1 read 0. -/
theorem test_rd_b_ctrl : answer .rdBCtrl clockOnly = some (.okay, 0#32) := by decide
/-- V-GEN-13. -/
theorem test_wr_b_ctrl_state : codeOf (.wrBCtrl 1#32) clockOnly = some 6 := by decide
/-- R118: bits 31:1 of WDATA are ignored. -/
theorem test_wr_b_ctrl_start :
    (nextOf (exec (.wrBCtrl 0xFFFFFFFF#32)
      { clockOnly with genB := ⟨false, 4#16, 1#16, 1#16, 0#16⟩ })).map (fun t => t.genB) =
      some ⟨true, 4#16, 1#16, 1#16, 3#16⟩ := by decide
/-- R112's example. -/
theorem test_rd_b_period :
    answer .rdBPeriod { clockOnly with genB := running 1875#16 1875#16 0#16 } =
      some (.okay, 0xF424#32) := by decide
/-- V-GEN-12. -/
theorem test_wr_b_period_range : codeOf (.wrBPeriod 0x10000#32) clockOnly = some 7 := by decide
/-- V-GEN-15: lowering PERIOD clamps SHD and ACT. -/
theorem test_wr_b_period_lowers :
    (nextOf (exec (.wrBPeriod 50#32)
      { clockOnly with genB := ⟨false, 100#16, 100#16, 100#16, 0#16⟩ })).map (fun t => t.genB) =
      some ⟨false, 50#16, 50#16, 50#16, 0#16⟩ := by decide
/-- V-GEN-15. -/
theorem test_rd_b_duty :
    answer .rdBDuty { clockOnly with genB := ⟨false, 50#16, 50#16, 50#16, 0#16⟩ } =
      some (.okay, 50#32) := by decide
/-- V-GEN-10. -/
theorem test_wr_b_duty_state : codeOf (.wrBDuty 5#32) clockOnly = some 6 := by decide
/-- V-GEN-14: while stopped, ACT follows SHD. -/
theorem test_wr_b_duty_stopped :
    (nextOf (exec (.wrBDuty 70000#32)
      { clockOnly with genB := ⟨false, 100#16, 0#16, 0#16, 0#16⟩ })).map (fun t => t.genB) =
      some ⟨false, 100#16, 100#16, 100#16, 0#16⟩ := by decide
/-- V-GEN-14. -/
theorem test_rd_b_dutyact :
    answer .rdBDutyact { clockOnly with genB := ⟨false, 100#16, 100#16, 100#16, 0#16⟩ } =
      some (.okay, 100#32) := by decide
/-- R119: CNT reads 0 before the first enable. -/
theorem test_rd_b_count : answer .rdBCount clockOnly = some (.okay, 0#32) := by decide

/-- R140's example. -/
theorem test_rd_tctrl : answer .rdTctrl (timerRuns 7#24) = some (.okay, 1#32) := by decide
/-- V-TMR-2: TRELOAD is 0. -/
theorem test_wr_tctrl_state : codeOf (.wrTctrl 1#32) aRuns = some 6 := by decide
/-- V-TMR-5. -/
theorem test_wr_tctrl_start :
    (nextOf (exec (.wrTctrl 1#32) { aRuns with timer := ⟨false, 3#24, 0#24⟩ })).map (fun t => t.timer) =
      some ⟨true, 3#24, 2#24⟩ := by decide
/-- R143's example. -/
theorem test_rd_treload : answer .rdTreload (timerRuns 7#24) = some (.okay, 0xC350#32) := by decide
/-- V-TMR-4. -/
theorem test_wr_treload_range : codeOf (.wrTreload 0x01000000#32) State.reset = some 7 := by decide
/-- V-TMR-8. -/
theorem test_wr_treload_locked :
    codeOf (.wrTreload 40000#32) (timerRuns 7#24) = some 5 ∧
      answer (.wrTreload 50000#32) (timerRuns 7#24) = some (.okay, 0#32) := by decide
/-- V-TMR-6: a read in the cycle of a tick returns the reload value. -/
theorem test_rd_tcount_tick :
    (nextOf (step (go (some (readRequest .tcount)) .busFirst
      { aRuns with timer := ⟨true, 3#24, 0#24⟩ }))).map (fun t => t.out.rdata) = some 2#32 := by decide
/-- V-TMR-7. -/
theorem test_rd_tcount_next :
    (nextOf (step (go (some (readRequest .tcount)) .rampFirst (timerRuns 49999#24)))).map
      (fun t => t.out.rdata) = some 0xC34E#32 := by decide

/-- R171's example. -/
theorem test_rd_errstat : answer .rdErrstat oneError = some (.okay, 0xC0400106#32) := by decide
/-- R172's example. -/
theorem test_rd_errdata : answer .rdErrdata oneError = some (.okay, 1#32) := by decide

/-! ## Errors -/

/-- V-ERR-1: the whole record of the first error, and nothing else changes. -/
theorem test_error_first :
    nextOf (exec (.wrACtrl 1#32) State.reset) =
      some { oneError with out := { State.reset.out with resp := .error } } := by decide
/-- V-ERR-2: a read records data 0, whatever WDATA carries. -/
theorem test_error_read :
    (nextOf (perform (some ⟨0x4014#16, 0xFFFFFFFF#32⟩) State.reset)).map (fun t => errstatWord t.err) =
      some 0x40140103#32 ∧
    (nextOf (perform (some ⟨0x4014#16, 0xFFFFFFFF#32⟩) State.reset)).map (fun t => t.err.data) =
      some 0#32 := by decide
/-- V-ERR-3: COUNT saturates and the first error stays. -/
theorem test_error_saturates :
    (nextOf (perform (some ⟨0x4049#16, 0#32⟩)
      { oneError with err := { oneError.err with count := 255#8 } })).map
      (fun t => errstatWord t.err) = some 0xC040FF06#32 := by decide

/-! ## Cycles -/

/-- V-WAV-5: in a boundary cycle the old shadow is loaded, and the write goes to the next period. -/
theorem test_boundary_and_write :
    (nextOf (step (go (some (writeRequest .aDuty 3)) .busFirst (wave 1#16 1#16 0#16)))).map
      (fun t => (t.genA, t.out.pwmA)) = some (⟨true, 4#16, 3#16, 1#16, 3#16⟩, true) := by decide
/-- V-WAV-1: one tick into the period the output is low again. -/
theorem test_wave_low :
    (nextOf (step (go none .busFirst (wave 1#16 1#16 3#16)))).map
      (fun t => (t.genA.cnt, t.out.pwmA)) = some (2#16, false) := by decide
/-- V-WAV-6: PERIOD = 1, ACT = 1 is constant high. -/
theorem test_wave_period_one :
    (nextOf (step (go none .busFirst
      { State.reset with clk := fastClock, genA := ⟨true, 1#16, 1#16, 1#16, 0#16⟩ }))).map
      (fun t => (t.genA.cnt, t.out.pwmA)) = some (0#16, true) := by decide
/-- P1: the first PWM tick falls in cycle 16, so cycle 15 moves psc to 15 and no counter. -/
theorem test_prescaler :
    (nextOf (step (go none .busFirst { afterBringup with clk := productClock 14#16 }))).map
      (fun t => (t.clk.psc, t.genA.cnt)) = some (15#16, 62499#16) ∧
    (nextOf (step (go none .busFirst { afterBringup with clk := productClock 15#16 }))).map
      (fun t => (t.clk.psc, t.genA.cnt)) = some (0#16, 62498#16) := by decide
/-- R212: reset while the block runs. -/
theorem test_reset_cycle :
    nextOf (step (decideInput { rst := true, request := some ⟨0x4049#16, 0#32⟩, order := .busFirst }
      afterBringup)) = some State.reset := by decide

/-- V-RAMP-3 and V-RAMP-4: the wrap with GE, and its absence with GT. -/
theorem test_ramp_wrap :
    (rampStep (launch 4#32 56200#32 .up)).ramp = ⟨5#32, 0#32, .up⟩ ∧
    (rampStep { launch 4#32 56200#32 .up with params := ⟨.gt, .everyTick⟩ }).ramp =
      ⟨5#32, 56250#32, .up⟩ := by decide
/-- V-RAMP-10 and V-RAMP-12: the DOWN branch. -/
theorem test_ramp_down :
    (rampStep (launch 14#32 0#32 .down)).ramp = ⟨15#32, 0#32, .up⟩ ∧
    (rampStep (launch 4#32 30#32 .down)).ramp = ⟨5#32, 4294967276#32, .down⟩ ∧
    (rampStep (launch 4#32 30#32 .down)).genA.shd = 62500#16 := by decide
/-- V-RAMP-13, V-RAMP-14 and V-RAMP-17: sums modulo 2^32. -/
theorem test_ramp_modular :
    (rampStep (launch 4#32 4294967246#32 .up)).ramp = ⟨5#32, 0#32, .up⟩ ∧
    (rampStep (launch 4#32 4294967276#32 .up)).ramp = ⟨5#32, 30#32, .up⟩ ∧
    (rampStep (launch 4294967295#32 150#32 .up)).ramp = ⟨0#32, 200#32, .up⟩ := by decide
/-- V-RAMP-18 and V-RAMP-19: the two write policies on a tick that is no step. -/
theorem test_ramp_policy :
    (rampStep { launch 3#32 100#32 .up with
      genA := running 7#16 7#16 0#16, params := ⟨.ge, .stepOnly⟩ }).genA.shd = 7#16 ∧
    (rampStep { launch 3#32 100#32 .up with genA := running 7#16 7#16 0#16 }).genA.shd = 100#16 := by
  decide
/-- P5, cycle 27, EVERY_TICK: the last writer of A_DUTY wins. -/
theorem test_collision :
    (nextOf (step (go (some (writeRequest .aDuty 59375)) .busFirst (launch 10#32 100#32 .up)))).map
      (fun t => t.genA.shd) = some 100#16 ∧
    (nextOf (step (go (some (writeRequest .aDuty 59375)) .rampFirst (launch 10#32 100#32 .up)))).map
      (fun t => t.genA.shd) = some 59375#16 := by decide

/-! ## The host's side -/

/-- P1: what BRINGUP presents, cycle by cycle. -/
theorem test_bringup :
    (expand .bringup).flatMap lineRequests =
      [some ⟨0xC000#16, 0x41#32⟩, some ⟨0xC044#16, 62500#32⟩, some ⟨0xC048#16, 3125#32⟩,
       some ⟨0xC040#16, 1#32⟩, some ⟨0xC084#16, 62500#32⟩, some ⟨0xC088#16, 1875#32⟩,
       some ⟨0xC080#16, 1#32⟩, some ⟨0xC104#16, 50000#32⟩, some ⟨0xC100#16, 1#32⟩] := by decide
/-- W8 scenario 4: B1 and B2 together, for both policies. -/
theorem test_buttons :
    buttonDispatch .lowestBitWins 0x18#32 = some 3125 ∧
      buttonDispatch .singleBitOnly 0x18#32 = none := by decide
/-- R93, W9: DELAY_MS 2000 is 100000000 cycles without a transaction. -/
theorem test_delay : expand (.delayMs 2000) = [.idle 100000000] := by decide

/-! ## Witnesses: states and operands that meet the hypotheses of each statement, clause by clause -/

/-- A host access and a timer tick in one cycle. -/
def tickCycle (request : Option Request) (order : Order) : State :=
  go request order (launch 10#32 100#32 .up)

/-- D = 32768, the largest divisor, at the end of a PWM tick. -/
def slowClock : Clock := { diven := true, divlog2 := 15#4, psc := 32767#16 }

theorem witness_DecodeAndEncodeAgree :
    Instr.wellFormed (.wrTreload 0xFFFFFFFF#32) = true ∧ decode 0xC104#16 0#32 = .op (.wrTreload 0#32) := by
  decide

theorem witness_IllegalRequestsByField :
    decode 0x3FFF#16 0#32 = .error .width ∧ decode 0x4001#16 0#32 = .error .align ∧
    decode 0x5000#16 0#32 = .error .unmapped ∧ decode 0x4004#16 0#32 = .error .unmapped ∧
    decode 0xC1F4#16 0#32 = .error .readOnly := by decide

theorem witness_StepRunsDecodedInstruction_bus :
    cycleInput (go (some ⟨0xC048#16, 5#32⟩) .busFirst aRuns) =
      { rst := false, request := some ⟨0xC048#16, 5#32⟩, order := .busFirst } ∧
    decode 0xC048#16 5#32 = .op (.wrADuty 5#32) := by decide

theorem witness_StepRunsDecodedInstruction_ramp :
    cycleInput (tickCycle (some ⟨0x4048#16, 0#32⟩) .rampFirst) =
      { rst := false, request := some ⟨0x4048#16, 0#32⟩, order := .rampFirst } ∧
    decode 0x4048#16 0#32 = .op .rdADuty := by decide

/-- In a timer-tick cycle, both orders, each code the decoder gives. -/
theorem witness_IllegalRequestAnswersItsError :
    (∀ o : Order,
      cycleInput (tickCycle (some ⟨0xC1F4#16, 7#32⟩) o) =
        { rst := false, request := some ⟨0xC1F4#16, 7#32⟩, order := o }) ∧
    decode 0xC1F4#16 7#32 = .error .readOnly ∧ decode 0x3FFF#16 7#32 = .error .width ∧
    decode 0x4001#16 7#32 = .error .align ∧ decode 0x5000#16 7#32 = .error .unmapped :=
  ⟨fun _ => rfl, by decide, by decide, by decide, by decide⟩

/-- The record of an illegal write in such a cycle (60_exceptions.md R180, 43_error_status.md R170). -/
theorem test_illegal_write_is_recorded :
    (nextOf (step (tickCycle (some ⟨0xC1F4#16, 7#32⟩) .rampFirst))).map
      (fun t => (t.out.resp, t.err.code.toNat, t.err.req, t.err.data)) =
      some (.error, 4, 0xC1F4#16, 7#32) := by decide

theorem witness_ResetCycleClearsEverything :
    (cycleInput (decideInput { rst := true, request := none, order := .busFirst } afterBringup)).rst =
      true := by decide

/-- With no inputs decided the step draws them, whatever the draw is. -/
theorem witness_StepSpendsItsInputs_drawn :
    State.reset.inputs = [] ∧ ∃ t, step State.reset = .next t := by
  refine ⟨rfl, ?_⟩
  cases h : (cycleInput State.reset).rst
  · rw [step_run State.reset h]
    obtain ⟨_, u, _, _, hu⟩ | ⟨_, u, _, _, hu⟩ :=
      runCycle_cases (cycleInput State.reset) (spendInput State.reset)
    · exact ⟨_, hu⟩
    · exact ⟨_, hu⟩
  · exact ⟨_, step_reset State.reset h⟩

theorem witness_StepSpendsItsInputs_decided :
    (go none .busFirst State.reset).inputs =
      { rst := false, request := none, order := .busFirst } :: [] ∧
    ∃ t, step (go none .busFirst State.reset) = .next t := ⟨rfl, _, rfl⟩

/-- Counting, reloading (at the largest D), and holding with DIVEN = 0. -/
theorem witness_PrescalerCountsModuloD :
    (cycleInput (go none .busFirst aRuns)).rst = false ∧
    (cycleInput (go none .busFirst aRuns)).request = none ∧
    (∃ t, step (go none .busFirst aRuns) = .next t) ∧
    (∃ t, step (go none .busFirst { aRuns with clk := slowClock }) = .next t) ∧
    slowClock.psc.toNat = 2 ^ slowClock.divlog2.toNat - 1 ∧
    (∃ t, step (go none .busFirst State.reset) = .next t) ∧ State.reset.clk.diven = false :=
  ⟨rfl, rfl, ⟨_, rfl⟩, ⟨_, rfl⟩, rfl, ⟨_, rfl⟩, rfl⟩

/-- A boundary (CNT = 0), a count (CNT = 3) and a cycle without a tick. -/
theorem witness_RunningGeneratorCounts :
    (∃ t, step (go none .busFirst (wave 1#16 1#16 0#16)) = .next t) ∧
    (∃ t, step (go none .busFirst (wave 1#16 1#16 3#16)) = .next t) ∧
    fastClock.diven = true ∧ fastClock.psc.toNat = 2 ^ fastClock.divlog2.toNat - 1 ∧
    (∃ t, step (go none .rampFirst afterBringup) = .next t) ∧ afterBringup.genB.en = true ∧
    afterBringup.clk.psc.toNat ≠ 2 ^ afterBringup.clk.divlog2.toNat - 1 :=
  ⟨⟨_, rfl⟩, ⟨_, rfl⟩, rfl, rfl, ⟨_, rfl⟩, rfl, by decide⟩

/-- Generator B stopped with PERIOD = 4. -/
def bStopped : Generator := { en := false, period := 4#16, shd := 1#16, act := 1#16, cnt := 0#16 }

/-- Stopped before and after; B stopped in a cycle with a PWM tick, a timer tick and a write of A's
duty; A stopped, without a timer tick; stopped by reset. -/
theorem witness_StoppedGeneratorHolds :
    (nextOf (step (go (some ⟨0xC084#16, 50#32⟩) .busFirst clockOnly))).map
      (fun t => (t.genB.en, t.genB.period)) = some (false, 50#16) ∧
    (nextOf (step (go (some ⟨0xC048#16, 2#32⟩) .rampFirst
      { wave 1#16 1#16 0#16 with genB := bStopped, timer := ⟨true, 5#24, 0#24⟩ }))).map
      (fun t => t.genB) = some bStopped ∧
    (∃ t, step (go (some ⟨0xC088#16, 2#32⟩) .busFirst { clockOnly with genA := bStopped }) = .next t) ∧
    (nextOf (step (decideInput { rst := true, request := none, order := .busFirst } aRuns))).map
      (fun t => t.genA.en) = some false := ⟨by decide, by decide, ⟨_, rfl⟩, by decide⟩

/-- A reload at 0, a count, a stopped timer, and one that the cycle starts. -/
theorem witness_TimerCountsSystemCycles :
    (∃ t, step (go none .busFirst (timerRuns 0#24)) = .next t) ∧
    (∃ t, step (go none .busFirst (timerRuns 1#24)) = .next t) ∧
    (nextOf (step (go none .busFirst aRuns))).map (fun t => t.timer.en) = some false ∧
    (nextOf (step (go (some ⟨0xC100#16, 1#32⟩) .busFirst
      { aRuns with timer := ⟨false, 1#24, 5#24⟩ }))).map (fun t => t.timer) =
      some ⟨true, 1#24, 0#24⟩ := ⟨⟨_, rfl⟩, ⟨_, rfl⟩, by decide, by decide⟩

theorem witness_OutputLevelFollowsState :
    (nextOf (step (go none .busFirst (wave 3#16 3#16 2#16)))).map (fun t => (t.out.pwmA, t.out.pwmB)) =
      some (true, false) ∧
    (nextOf (step (go none .busFirst (wave 2#16 2#16 2#16)))).map (fun t => t.out.pwmA) =
      some false := by decide

theorem witness_HighTimeIsActiveDuty :
    (running 0#16 62500#16 0#16).en = true ∧
    (running 0#16 62500#16 0#16).act.toNat ≤ (running 0#16 62500#16 0#16).period.toNat ∧
    (running 0#16 0#16 0#16).act.toNat ≤ (running 0#16 0#16 0#16).period.toNat := by decide

/-- ACT = 0 and ACT = PERIOD. -/
theorem witness_ConstantLevelsAtTheBounds :
    GeneratorInv fastClock (wave 0#16 0#16 3#16).genA ∧ (wave 0#16 0#16 3#16).genA.en = true ∧
    (wave 0#16 0#16 3#16).genA.act = 0#16 ∧
    GeneratorInv fastClock (wave 4#16 4#16 0#16).genA ∧
    (wave 4#16 4#16 0#16).genA.act = (wave 4#16 4#16 0#16).genA.period := by decide

/-- One cycle before the boundary, and the boundary. -/
theorem witness_PeriodLastsPeriodTimesD :
    BlockInv (wave 1#16 1#16 1#16) ∧ cyclesToBoundary fastClock (wave 1#16 1#16 1#16).genA = 1 ∧
    (∃ t, step (go none .busFirst (wave 1#16 1#16 1#16)) = .next t) ∧
    BlockInv (wave 1#16 1#16 0#16) ∧ cyclesToBoundary fastClock (wave 1#16 1#16 0#16).genA = 0 ∧
    ∃ t, step (go none .busFirst (wave 1#16 1#16 0#16)) = .next t :=
  ⟨by decide, by decide, ⟨_, rfl⟩, by decide, by decide, _, rfl⟩

theorem witness_FirstPeriodAfterEnable :
    BlockInv { clockOnly with genB := ⟨false, 62500#16, 0#16, 0#16, 0#16⟩ } ∧
    encode (ctrlWrite .b 1#32) = ⟨0xC080#16, 1#32⟩ ∧ clockOnly.clk.diven = true ∧
    (62500#16 : Count16) ≠ 0#16 := by decide

/-- A ramp step changes A alone, so B's shadow has a tick among its cycles. -/
theorem witness_ShadowChangesOnlyByDutyWrites :
    (∃ t, step (tickCycle (some ⟨0xC048#16, 5#32⟩) .busFirst) = .next t) ∧
    (0xC048#16 : ReqWord) ≠ writeWord (dutyReg .b) ∧ (0xC048#16 : ReqWord) ≠ writeWord (periodReg .b) ∧
    (∃ t, step (go none .busFirst (timerRuns 1#24)) = .next t) ∧
    (timerRuns 1#24).timer.tcnt ≠ 0#24 :=
  ⟨⟨_, rfl⟩, by decide, by decide, ⟨_, rfl⟩, by decide⟩

/-- A's boundary without a timer tick, and B's in a cycle with one. -/
theorem witness_BoundaryLoadsTheOldShadow :
    BlockInv (wave 1#16 1#16 0#16) ∧ (wave 1#16 1#16 0#16).genA.en = true ∧
    encode (dutyRegWrite .a 3#32) = ⟨0xC048#16, 3#32⟩ ∧ pwmTick fastClock = true ∧
    (wave 1#16 1#16 0#16).genA.cnt = 0#16 ∧ timerTick (wave 1#16 1#16 0#16).timer = false ∧
    (let s := { wave 1#16 1#16 0#16 with
      genB := { bStopped with en := true }, timer := { en := true, n := 5#24, tcnt := 0#24 } }
    BlockInv s ∧ s.genB.en = true ∧ s.genB.cnt = 0#16 ∧ pwmTick s.clk = true ∧
      timerTick s.timer = true) := by decide

theorem witness_RampAdvancesOnTicksOnly :
    (∃ t, step (tickCycle none .busFirst) = .next t) ∧
    (launch 10#32 100#32 .up).timer.en = true ∧ (launch 10#32 100#32 .up).timer.tcnt = 0#24 ∧
    (∃ t, step (go none .busFirst (timerRuns 1#24)) = .next t) ∧ (timerRuns 1#24).timer.tcnt ≠ 0#24 ∧
    (∃ t, step (go none .busFirst aRuns) = .next t) ∧ aRuns.timer.en = false :=
  ⟨⟨_, rfl⟩, rfl, rfl, ⟨_, rfl⟩, by decide, ⟨_, rfl⟩, rfl⟩

/-- The last tick before the wrap of elapsed_ms that is no step. -/
theorem witness_ElapsedCountsTicks : ((4294967293#32 : Word).toNat + 1) % 2 ^ 32 % 5 ≠ 0 := by decide

/-- The two steps at the wrap of elapsed_ms. -/
theorem witness_RampUpBranch :
    ((4294967294#32 : Word).toNat + 1) % 2 ^ 32 % 5 = 0 ∧
    ((4294967295#32 : Word).toNat + 1) % 2 ^ 32 % 5 = 0 ∧
    (launch 4#32 56200#32 .up).ramp.direction = .up := by decide

/-- A falling step, the turn at 0, and a step of the machine that stays DOWN. -/
theorem witness_RampDownBranch :
    ((4#32 : Word).toNat + 1) % 2 ^ 32 % 5 = 0 ∧ 0 < (30#32 : Word).toNat ∧ (0#32 : Word).toNat = 0 ∧
    (nextOf (step (go none .busFirst (launch 4#32 30#32 .down)))).map (fun t => t.ramp.direction) =
      some .down := by decide

/-- A step, a tick that is no step under EVERY_TICK, and one under STEP_ONLY. -/
theorem witness_RampWritesGeneratorA :
    (nextOf (step (go none .busFirst (launch 4#32 0#32 .up)))).map (fun t => t.ramp.elapsedMs) =
      some 5#32 ∧
    (launch 3#32 0#32 .up).params.writePolicy = .everyTick ∧ (launch 3#32 0#32 .up).genA.en = true ∧
    (nextOf (step (go none .busFirst
      { launch 3#32 0#32 .up with params := ⟨.gt, .stepOnly⟩ }))).map (fun t => t.ramp.elapsedMs) =
      some 4#32 := by decide

theorem witness_RampTimelineFromReset : 5625 < 2 ^ 32 ∧ 4294967295 < 2 ^ 32 := by decide

/-- With a tick the request is no access to A_DUTY; without one it may be. -/
theorem witness_OrderShowsOnlyOnACollision :
    BlockInv (launch 10#32 100#32 .up) ∧ timerTick (launch 10#32 100#32 .up).timer = true ∧
    (launch 10#32 100#32 .up).params.writePolicy = .everyTick ∧
    ((0xC088#16 : ReqWord) ≠ 0xC048#16 ∧ (0xC088#16 : ReqWord) ≠ 0x4048#16) ∧
    BlockInv (timerRuns 1#24) ∧ timerTick (timerRuns 1#24).timer = false := by decide

/-- EVERY_TICK on a tick that is no step, and STEP_ONLY on one that is. -/
theorem witness_CollisionOnADuty :
    BlockInv (launch 10#32 100#32 .up) ∧ timerTick (launch 10#32 100#32 .up).timer = true ∧
    (launch 10#32 100#32 .up).params.writePolicy = .everyTick ∧
    (rampAdvance .ge (launch 4#32 100#32 .up).ramp).elapsedMs.toNat % 5 = 0 ∧
    BlockInv { launch 4#32 100#32 .up with params := ⟨.ge, .stepOnly⟩ } := by decide

theorem witness_StopDoesNotCancelATick :
    timerTick (launch 10#32 100#32 .up).timer = true ∧ (0xFFFFFFFE#32 : Word).getLsbD 0 = false := by
  decide

/-- N = 1 over two cycles (m = 2), and N = 2 over two cycles (m = 1). -/
theorem witness_TicksFallEveryNCycles :
    (∃ t, core.run 2 (go none .busFirst (go none .busFirst
      { aRuns with timer := ⟨true, 1#24, 0#24⟩ })) = .next t) ∧
    (0#24 : Count24) = 1#24 - 1#24 ∧
    (∃ t, core.run 2 (go none .busFirst (go none .rampFirst
      { aRuns with timer := ⟨true, 2#24, 1#24⟩ })) = .next t) ∧
    (1#24 : Count24) = 2#24 - 1#24 := ⟨⟨_, rfl⟩, rfl, ⟨_, rfl⟩, rfl⟩

theorem witness_ReadSeesThisCyclesCounters :
    BlockInv (timerRuns 0#24) ∧ Reg.aCount ≠ .aDuty ∧ Reg.tcount ≠ .aDuty := by decide

/-- A changing write while stopped, a write of the current value, and a changing write while A runs. -/
theorem witness_WriteClockConfiguration :
    (0x41#32 : Word).getLsbD 0 ≠ State.reset.clk.diven ∧ State.reset.genA.en = false ∧
    State.reset.genB.en = false ∧
    ¬ ((0x4F#32 : Word).getLsbD 0 ≠ aRuns.clk.diven ∨
      (0x4F#32 : Word).toNat / 16 % 16 ≠ aRuns.clk.divlog2.toNat) ∧
    (0x51#32 : Word).toNat / 16 % 16 ≠ aRuns.clk.divlog2.toNat ∧ aRuns.genA.en = true := by decide

/-- Enable; the current EN, 1 and 0; stop; an enable without the clock, and one without a period. -/
theorem witness_WriteGeneratorControl :
    (⟨false, 1#16, 0#16, 0#16, 0#16⟩ : Generator).period ≠ 0#16 ∧ clockOnly.clk.diven = true ∧
    (1#32 : Word).getLsbD 0 = aRuns.genA.en ∧ (2#32 : Word).getLsbD 0 = aRuns.genB.en ∧
    (aRuns.genA.en = true ∧ (2#32 : Word).getLsbD 0 = false) ∧
    (State.reset.genA.en = false ∧ State.reset.clk.diven = false) ∧
    (clockOnly.genA.en = false ∧ clockOnly.genA.period = 0#16) := by decide

/-- The bounds 1, 0xFFFF, 0 and 0x10000 of a stopped generator, and a running one's two cases. -/
theorem witness_WriteGeneratorPeriod :
    (clockOnly.genA.en = false ∧ 1 ≤ (1#32 : Word).toNat ∧ (0xFFFF#32 : Word).toNat ≤ 0xFFFF) ∧
    (aRuns.genA.en = true ∧ (62500#32 : Word).toNat = aRuns.genA.period.toNat) ∧
    (0#32 : Word).toNat ≠ aRuns.genA.period.toNat ∧
    ((0#32 : Word).toNat = 0 ∧ 0xFFFF < (0x10000#32 : Word).toNat) := by decide

/-- With a period, running and stopped, and without one. -/
theorem witness_WriteGeneratorDuty :
    aRuns.genA.period ≠ 0#16 ∧ (⟨false, 1#16, 0#16, 0#16, 0#16⟩ : Generator).period ≠ 0#16 ∧
    clockOnly.genB.period = 0#16 := by decide

/-- Start; stop; the current EN, 1 and 0; a start without A, and one without TRELOAD. -/
theorem witness_WriteTimerControl :
    (aRuns.timer.en = false ∧ aRuns.genA.en = true ∧ (⟨false, 1#24, 0#24⟩ : Timer).n ≠ 0#24) ∧
    ((timerRuns 7#24).timer.en = true ∧ (0#32 : Word).getLsbD 0 = false) ∧
    ((3#32 : Word).getLsbD 0 = (timerRuns 7#24).timer.en ∧ (0#32 : Word).getLsbD 0 = aRuns.timer.en) ∧
    ((1#32 : Word).getLsbD 0 = true ∧ State.reset.genA.en = false ∧ aRuns.timer.n = 0#24) := by decide

/-- The bounds 1, 0xFFFFFF, 0 and 0x1000000 of a stopped timer, and a running one's two cases. -/
theorem witness_WriteTimerReload :
    (aRuns.timer.en = false ∧ 1 ≤ (1#32 : Word).toNat ∧ (0xFFFFFF#32 : Word).toNat ≤ 0xFFFFFF) ∧
    ((timerRuns 7#24).timer.en = true ∧ (50000#32 : Word).toNat = (timerRuns 7#24).timer.n.toNat) ∧
    (0#32 : Word).toNat ≠ (timerRuns 7#24).timer.n.toNat ∧
    ((0#32 : Word).toNat = 0 ∧ 0xFFFFFF < (0x1000000#32 : Word).toNat) := by decide

/-- Each write of a generator, accepted or turned away, answers a next state. -/
theorem witness_GeneratorWriteFrame :
    (∃ t, exec (ctrlWrite .a 0#32) aRuns = .next t) ∧ (∃ t, exec (periodWrite .b 50#32) aRuns = .next t) ∧
    (∃ t, exec (dutyRegWrite .a 5#32) aRuns = .next t) :=
  ⟨⟨_, rfl⟩, ⟨_, rfl⟩, ⟨_, rfl⟩⟩

/-- An accepted write and one turned away. -/
theorem witness_ClockWriteFrame :
    (nextOf (exec (.wrClkcfg 0x41#32) State.reset)).map (fun t => t.out.resp) = some .okay ∧
    (nextOf (exec (.wrClkcfg 1#32) aRuns)).map (fun t => t.out.resp) = some .error := by decide

theorem witness_TimerWriteFrame :
    (∃ t, exec (.wrTctrl 0#32) (timerRuns 7#24) = .next t) ∧
    (∃ t, exec (.wrTreload 3#32) (timerRuns 7#24) = .next t) := ⟨⟨_, rfl⟩, ⟨_, rfl⟩⟩

/-- A read, an accepted write, and an error at the saturated count. -/
theorem witness_AccessesAreIdempotent :
    (∃ t, exec .rdTcount (timerRuns 7#24) = .next t) ∧ isWrite .rdTcount = false ∧
    (nextOf (exec (.wrADuty 70000#32) aRuns)).map (fun t => t.out.resp) = some .okay ∧
    (nextOf (exec (.wrACtrl 0#32) { aRuns with err := ⟨5#4, 255#8, 0xC000#16, 1#32⟩ })).map
      (fun t => t.out.resp) = some .error := ⟨⟨_, rfl⟩, rfl, by decide, by decide⟩

theorem witness_BusErrorRecordsTheFirst :
    State.reset.err.code = 0#4 ∧ oneError.err.code ≠ 0#4 := by decide

theorem witness_ErroringTransactionIsPrecise :
    (nextOf (step (tickCycle (some ⟨0xC040#16, 0#32⟩) .rampFirst))).map (fun t => t.out.resp) =
      some .error ∧
    (nextOf (step (go (some ⟨0x4049#16, 0#32⟩) .busFirst State.reset))).map (fun t => t.out.resp) =
      some .error := by decide

/-- A recorded error kept, a new error, and a cycle without one. -/
theorem witness_FirstErrorIsKept :
    oneError.err.code ≠ 0#4 ∧
    (nextOf (step (go (some ⟨0x4049#16, 0#32⟩) .busFirst oneError))).map (fun t => t.out.resp) =
      some .error ∧
    (nextOf (step (go none .busFirst oneError))).map (fun t => t.out.resp) = some .okay := by decide

theorem witness_InternalEventsNeverError :
    (cycleInput (tickCycle none .rampFirst)).rst = false ∧
    (cycleInput (tickCycle none .rampFirst)).request = none := by decide

theorem witness_StepKeepsBlockInvariant :
    BlockInv afterBringup ∧ ∃ t, step (go none .busFirst afterBringup) = .next t :=
  ⟨by decide, _, rfl⟩

/-- The largest duty of each comparison. -/
theorem witness_StepKeepsRampInvariant :
    RampInv .ge (launch 4#32 56200#32 .up).ramp ∧ RampInv .gt (launch 4#32 56250#32 .up).ramp ∧
    ∃ t, step (go none .busFirst (launch 4#32 56200#32 .up)) = .next t :=
  ⟨by decide, by decide, _, rfl⟩

theorem witness_StepKeepsErrorRecordShape :
    ErrorInv oneError.err ∧ ErrorInv State.reset.err ∧
    ∃ t, step (go (some ⟨0x4049#16, 0#32⟩) .busFirst oneError) = .next t :=
  ⟨by decide, by decide, _, rfl⟩

theorem witness_ConfigurationFixedOnceRunning :
    (∃ t, step (go (some ⟨0xC000#16, 1#32⟩) .busFirst afterBringup) = .next t) ∧
    afterBringup.genA.en = true ∧ afterBringup.genB.en = true ∧ afterBringup.timer.en = true :=
  ⟨⟨_, rfl⟩, rfl, rfl, rfl⟩

theorem witness_IdleBlockHoldsStill :
    oneError.clk.diven = false ∧ oneError.timer.en = false ∧
    (cycleInput (go none .busFirst oneError)).request = none := by decide

/-- The presets 1875 and 7187, the loop's 59375, a read, and no transaction keep the contract. -/
theorem witness_ContractKeepsProductRun :
    ProductRun afterBringup ∧
    contractInput { rst := false, request := some ⟨0xC088#16, 1875#32⟩, order := .busFirst } = true ∧
    contractInput { rst := false, request := some ⟨0xC088#16, 7187#32⟩, order := .busFirst } = true ∧
    contractInput { rst := false, request := some ⟨0xC048#16, 59375#32⟩, order := .rampFirst } = true ∧
    contractInput { rst := false, request := some ⟨0x4108#16, 0#32⟩, order := .busFirst } = true ∧
    contractInput { rst := false, request := none, order := .busFirst } = true ∧
    ∃ t, step (go (some ⟨0xC088#16, 7187#32⟩) .busFirst afterBringup) = .next t :=
  ⟨by decide, by decide, by decide, by decide, by decide, by decide, _, rfl⟩

/-- No mapped bit, each single one, the lowest pair, the highest pair, and all four. -/
theorem witness_ButtonDispatchTable :
    buttonDispatch .singleBitOnly 0x3#32 = none ∧ buttonDispatch .singleBitOnly 0x4#32 = some 1875 ∧
    buttonDispatch .singleBitOnly 0x8#32 = some 3125 ∧ buttonDispatch .singleBitOnly 0x10#32 = some 5000 ∧
    buttonDispatch .singleBitOnly 0x20#32 = some 7187 ∧
    buttonDispatch .lowestBitWins 0xC#32 = some 1875 ∧ buttonDispatch .lowestBitWins 0x30#32 = some 5000 ∧
    buttonDispatch .lowestBitWins 0x3C#32 = some 1875 := by decide

end Sys2Proof.Tests
end

section
/-! PROOF. The statements of the family 10_state.md about the reset state. -/

namespace Sys2Proof.Machine

/-- Settles O7. Each conjunct is one component of the state in the table of 10_state.md R44, and
`State.reset` is built from the components' own constants (`Clock.reset`, `Generator.reset` for A and
for B, `Timer.reset`, `Ramp.reset`, `ErrorStatus.reset`, `Outputs.reset`), so each holds by
computation. -/
theorem resetValues : Obligations.ResetValues :=
  ⟨rfl, rfl, rfl, rfl, rfl, rfl, rfl⟩

end Sys2Proof.Machine
end

section
/-! PROOF. The statements of the family 30_encoding.md about the errors of the decoder. -/

namespace Sys2Proof

theorem reqSize_eq_two_iff (q : ReqWord) : reqSize q = 2#2 ↔ q.toNat / 8192 % 4 = 2 := by
  simp [reqSize, ← BitVec.toNat_inj, BitVec.extractLsb'_toNat, Nat.shiftRight_eq_div_pow]

theorem reqX_eq_true_iff (q : ReqWord) : reqX q = true ↔ q.toNat / 4096 % 2 = 1 := by
  simp [reqX, BitVec.getLsbD, Nat.testBit_eq_decide_div_mod_eq]

theorem reqOffset_toNat (q : ReqWord) : (reqOffset q).toNat = q.toNat % 4096 := by
  simp [reqOffset, BitVec.extractLsb'_toNat]

theorem reqOffset_aligned_iff (q : ReqWord) :
    (reqOffset q).extractLsb' 0 2 = 0#2 ↔ q.toNat % 4 = 0 := by
  have hlow : ((reqOffset q).extractLsb' 0 2).toNat = q.toNat % 4 := by
    simp only [BitVec.extractLsb'_toNat, reqOffset_toNat, Nat.shiftRight_zero]
    omega
  rw [← BitVec.toNat_inj, hlow]
  rfl

theorem mem_allRegs (r : Reg) : r ∈ allRegs := by cases r <;> decide

/-- No register stands at an offset exactly when the offset's number is none of the map of
10_state.md R25. -/
theorem regAt_eq_none_iff (off : Offset) :
    regAt off = none ↔ off.toNat ∉ allRegs.map (fun r => (regOffset r).toNat) := by
  simp [Option.eq_none_iff_forall_ne_some, regAt_eq_some, mem_allRegs, BitVec.toNat_inj,
    eq_comm (a := off)]

/-- The RO registers of 10_state.md R25. -/
def readOnlyRegs : List Reg :=
  [.aDutyact, .aCount, .bDutyact, .bCount, .tcount, .errstat, .errdata]

theorem writeOp_eq_none_iff (r : Reg) (w : Word) : writeOp r w = none ↔ r ∈ readOnlyRegs := by
  cases r <;> simp [writeOp, readOnlyRegs]

/-- A write of an RO register, as the number of its request word. -/
theorem writeWord_readOnly_iff (q : ReqWord) :
    (∃ r ∈ readOnlyRegs, writeWord r = q) ↔
      q.toNat ∈ [0xC04C, 0xC050, 0xC08C, 0xC090, 0xC108, 0xC1F0, 0xC1F4] := by
  simp [readOnlyRegs, writeWord, regOffset, ← BitVec.toNat_inj, eq_comm (b := q.toNat)]

/-- A word access to a mapped register, with X = 0, is turned away only as a write of an RO register,
and then with E_READONLY (30_encoding.md R88). -/
theorem decode_mapped_error {q : ReqWord} {w : Word} {code : ErrCode} {r : Reg}
    (hs : reqSize q = 2#2) (hx : reqX q = false) (hr : regAt (reqOffset q) = some r)
    (h : decode q w = .error code) :
    code = .readOnly ∧ ∃ r ∈ readOnlyRegs, writeWord r = q := by
  have hq := req_eq_word q r hs hx ((regAt_eq_some _ r).mp hr)
  cases hwe : reqWe q
  case false =>
    have hread : q = readWord r := by simpa [hwe] using hq
    simp [hread, decode_readWord] at h
  case true =>
    have hwrite : q = writeWord r := by simpa [hwe] using hq
    rw [hwrite, decode_writeWord] at h
    cases hw : writeOp r w with
    | some i => simp [hw] at h
    | none =>
      have hcode : code = .readOnly := by simpa [hw, eq_comm] using h
      exact ⟨hcode, r, (writeOp_eq_none_iff r w).mp hw, hwrite.symm⟩

/-- What the decoder turns away, and with which error: the checks of 30_encoding.md R86 in their order,
by the fields of the request word. -/
theorem decode_eq_error_iff (q : ReqWord) (w : Word) (code : ErrCode) :
    decode q w = .error code ↔
      (code = .width ∧ reqSize q ≠ 2#2) ∨
      (code = .align ∧ reqSize q = 2#2 ∧ (reqOffset q).extractLsb' 0 2 ≠ 0#2) ∨
      (code = .unmapped ∧ reqSize q = 2#2 ∧ (reqOffset q).extractLsb' 0 2 = 0#2 ∧
        (reqX q = true ∨ regAt (reqOffset q) = none)) ∨
      (code = .readOnly ∧ ∃ r ∈ readOnlyRegs, writeWord r = q) := by
  constructor
  · intro h
    by_cases hs : reqSize q = 2#2
    case neg => exact .inl ⟨by simpa [decode, hs, eq_comm] using h, hs⟩
    by_cases ha : (reqOffset q).extractLsb' 0 2 = 0#2
    case neg => exact .inr (.inl ⟨by simpa [decode, hs, ha, eq_comm] using h, hs, ha⟩)
    cases hx : reqX q
    case true =>
      exact .inr (.inr (.inl ⟨by simpa [decode, hs, ha, hx, eq_comm] using h, hs, ha, .inl rfl⟩))
    cases hr : regAt (reqOffset q) with
    | none =>
      exact .inr (.inr (.inl ⟨by simpa [decode, hs, ha, hx, hr, eq_comm] using h, hs, ha, .inr rfl⟩))
    | some r => exact .inr (.inr (.inr (decode_mapped_error hs hx hr h)))
  · rintro (⟨rfl, hs⟩ | ⟨rfl, hs, ha⟩ | ⟨rfl, hs, ha, hx | hr⟩ | ⟨rfl, r, hr, rfl⟩)
    · simp [decode, hs]
    · simp [decode, hs, ha]
    · simp [decode, hs, ha, hx]
    · simp [decode, hs, ha, hr]
    · simp [decode_writeWord, (writeOp_eq_none_iff r w).mpr hr]

/-- Settles O3. `decode_eq_error_iff` gives each error by the fields of the request word; what is left
is to read the fields, the offsets of the map of 10_state.md R25 and the write words of its RO registers
as numbers. -/
theorem illegalRequestsByField : Obligations.IllegalRequestsByField := by
  intro q w
  have hunmapped := regAt_eq_none_iff (reqOffset q)
  rw [reqOffset_toNat] at hunmapped
  refine ⟨?width, ?align, ?unmapped, ?readOnly, fun code h => ?noOther⟩
  case width => simp [decode_eq_error_iff, reqSize_eq_two_iff]
  case align => simp [decode_eq_error_iff, reqSize_eq_two_iff, reqOffset_aligned_iff]
  case unmapped =>
    simp [decode_eq_error_iff, reqSize_eq_two_iff, reqOffset_aligned_iff, reqX_eq_true_iff, hunmapped,
      allRegs, regOffset]
  case readOnly => simp [decode_eq_error_iff, writeWord_readOnly_iff]
  case noOther =>
    obtain ⟨hc, -⟩ | ⟨hc, -⟩ | ⟨hc, -⟩ | ⟨hc, -⟩ := (decode_eq_error_iff q w code).mp h <;> simp [hc]

end Sys2Proof
end

section
/-! PROOF. The statements of the family 40_clock_config.md about the operations on CLKCFG. -/

namespace Sys2Proof.Machine

/-- A write whose rule accepts answers OKAY in the state the rule gives. -/
theorem performWrite_of_ok {r : Reg} {w : Word} {rule : Word → State → Except ErrCode State}
    {s t : State} (h : rule w s = .ok t) : performWrite r w rule s = .next (respondOkay 0#32 t) := by
  simp [performWrite, h]

theorem divlog2Field_toNat (w : Word) : (divlog2Field w).toNat = w.toNat / 16 % 16 := by
  simp [divlog2Field, BitVec.extractLsb'_toNat, Nat.shiftRight_eq_div_pow]

theorem divlog2Field_eq_ofNat (w : Word) : divlog2Field w = BitVec.ofNat 4 (w.toNat / 16) := by
  rw [← BitVec.toNat_inj, divlog2Field_toNat, BitVec.toNat_ofNat]

theorem clkcfgWord_eq_ofNat (c : Clock) :
    clkcfgWord c = BitVec.ofNat 32 (c.diven.toNat + 16 * c.divlog2.toNat) := by
  rw [← clkcfgWord_toNat, BitVec.ofNat_toNat, BitVec.setWidth_eq]

/-- WDATA differs from CLKCFG in a field exactly when the test of the write rule for the current value
fails (40_clock_config.md R101). -/
theorem changesClkcfg_iff (w : Word) (c : Clock) :
    (w.getLsbD 0 ≠ c.diven ∨ w.toNat / 16 % 16 ≠ c.divlog2.toNat) ↔
      ¬ (enField w = c.diven ∧ divlog2Field w = c.divlog2) := by
  rw [← divlog2Field_toNat, ne_eq, ne_eq, BitVec.toNat_inj, ← not_and_or]
  rfl

/-! The three outcomes of the write rule of CLKCFG (40_clock_config.md R101). -/

theorem writeClkcfg_unchanged {w : Word} {s : State}
    (h : enField w = s.clk.diven ∧ divlog2Field w = s.clk.divlog2) : writeClkcfg w s = .ok s :=
  if_pos h

theorem writeClkcfg_stopped {w : Word} {s : State}
    (h : ¬ (enField w = s.clk.diven ∧ divlog2Field w = s.clk.divlog2))
    (ha : s.genA.en = false) (hb : s.genB.en = false) :
    writeClkcfg w s =
      .ok { s with clk := { diven := enField w, divlog2 := divlog2Field w, psc := 0#16 } } := by
  rw [writeClkcfg, if_neg h, if_neg (by simp [ha, hb])]

theorem writeClkcfg_running {w : Word} {s : State}
    (h : ¬ (enField w = s.clk.diven ∧ divlog2Field w = s.clk.divlog2))
    (hrun : s.genA.en = true ∨ s.genB.en = true) : writeClkcfg w s = .error .locked := by
  rw [writeClkcfg, if_neg h, if_pos (by simpa using hrun)]

/-- Settles O38. WDATA's two fields are compared as the write rule compares them
(`changesClkcfg_iff`), and each clause is one outcome of the rule. -/
theorem writeClockConfiguration : Obligations.WriteClockConfiguration := by
  refine ⟨decode_writeWord .clkcfg, fun w s => ?_⟩
  dsimp only
  rw [changesClkcfg_iff, exec_wrClkcfg, ← divlog2Field_eq_ofNat]
  refine ⟨fun hchg ha hb => ?stopped, fun hsame => ?unchanged, fun hchg hrun => ?running⟩
  case stopped => exact performWrite_of_ok (writeClkcfg_stopped hchg ha hb)
  case unchanged => exact performWrite_of_ok (writeClkcfg_unchanged (not_not.mp hsame))
  case running => exact performWrite_of_error (writeClkcfg_running hchg hrun)

/-- Settles O32. The operation is the read of CLKCFG, whose word is the number of
`clkcfgWord_eq_ofNat`. -/
theorem readClockConfiguration : Obligations.ReadClockConfiguration := by
  refine ⟨decode_readWord .clkcfg, fun s => ?_⟩
  calc exec .rdClkcfg s = .next (respondOkay (clkcfgWord s.clk) s) := exec_readOp .clkcfg s
    _ = _ := by rw [clkcfgWord_eq_ofNat]; rfl

end Sys2Proof.Machine
end

section
/-! PROOF. The statements of the family 41_pwm_generator.md about the operations on a generator. -/

namespace Sys2Proof.Machine

/-- Settles O33. Each operation is the read of its register, and EN's word is the number of
`flagWord_eq`. -/
theorem readGeneratorConfiguration : Obligations.ReadGeneratorConfiguration := by
  refine ⟨fun w => ⟨decode_readWord .aCtrl w, decode_readWord .bCtrl w, decode_readWord .aPeriod w,
    decode_readWord .bPeriod w⟩, fun s => ?_⟩
  rw [← flagWord_eq, ← flagWord_eq, BitVec.ofNat_toNat, BitVec.ofNat_toNat]
  exact ⟨exec_readOp .aCtrl s, exec_readOp .bCtrl s, exec_readOp .aPeriod s, exec_readOp .bPeriod s⟩

/-! Each write of a generator by its register and its rule. -/

theorem exec_ctrlWrite_ctrlReg (g : GenId) (w : Word) (s : State) :
    exec (ctrlWrite g w) s = performWrite (ctrlReg g) w (writeCtrl g) s := by cases g <;> rfl

theorem exec_periodWrite_periodReg (g : GenId) (w : Word) (s : State) :
    exec (periodWrite g w) s = performWrite (periodReg g) w (writePeriod g) s := by cases g <;> rfl

theorem exec_dutyRegWrite_dutyReg (g : GenId) (w : Word) (s : State) :
    exec (dutyRegWrite g w) s = performWrite (dutyReg g) w (writeDuty g) s := by cases g <;> rfl

/-! The four outcomes of the write rule of g_CTRL (41_pwm_generator.md R118). -/

theorem writeCtrl_start {g : GenId} {w : Word} {s : State} (hen : (genOf g s).en = false)
    (hw : enField w = true) (hdiv : s.clk.diven = true) (hper : (genOf g s).period ≠ 0#16) :
    writeCtrl g w s = .ok (setGen g { genOf g s with
      en := true, cnt := (genOf g s).period - 1#16, act := (genOf g s).shd } s) := by
  simp [writeCtrl, hen, hw, hdiv, hper]

theorem writeCtrl_current {g : GenId} {w : Word} {s : State} (hw : enField w = (genOf g s).en) :
    writeCtrl g w s = .ok s := by
  cases hen : (genOf g s).en <;> simp [writeCtrl, hw, hen]

theorem writeCtrl_locked {g : GenId} {w : Word} {s : State} (hen : (genOf g s).en = true)
    (hw : enField w = false) : writeCtrl g w s = .error .locked := by
  simp [writeCtrl, hen, hw]

theorem writeCtrl_state {g : GenId} {w : Word} {s : State} (hen : (genOf g s).en = false)
    (hw : enField w = true) (hpre : s.clk.diven = false ∨ (genOf g s).period = 0#16) :
    writeCtrl g w s = .error .state := by
  simp [writeCtrl, hen, hw, hpre]

theorem sub_one_eq_ofNat {p : Count16} (hp : p ≠ 0#16) : p - 1#16 = BitVec.ofNat 16 (p.toNat - 1) := by
  have hpos : p.toNat ≠ 0 := fun h => hp (BitVec.eq_of_toNat_eq h)
  apply BitVec.eq_of_toNat_eq
  rw [BitVec.toNat_sub_of_le (by rw [BitVec.le_def, BitVec.toNat_ofNat]; omega), BitVec.toNat_ofNat,
    BitVec.toNat_ofNat]
  omega

/-- Settles O39. Each clause is one outcome of the write rule; the count that an enable loads is the
number PERIOD - 1, since PERIOD is not 0. -/
theorem writeGeneratorControl : Obligations.WriteGeneratorControl := by
  refine ⟨fun w => ⟨decode_writeWord .aCtrl w, decode_writeWord .bCtrl w⟩, fun g w s => ?_⟩
  rw [exec_ctrlWrite_ctrlReg]
  refine ⟨fun hen hw hdiv hper => ?start, fun hw => ?current, fun hen hw => ?locked,
    fun hen hw hpre => ?state⟩
  case start =>
    rw [← sub_one_eq_ofNat hper]
    exact performWrite_of_ok (writeCtrl_start hen hw hdiv hper)
  case current => exact performWrite_of_ok (writeCtrl_current hw)
  case locked => exact performWrite_of_error (writeCtrl_locked hen hw)
  case state => exact performWrite_of_error (writeCtrl_state hen hw hpre)

/-! The four outcomes of the write rule of g_PERIOD (41_pwm_generator.md R116), on WDATA as a number. -/

/-- The smaller of two 16-bit values as a number: the clamp of SHD to a new PERIOD. -/
theorem ite_le_eq_ofNat_min (x p : Count16) :
    (if x ≤ p then x else p) = BitVec.ofNat 16 (min x.toNat p.toNat) := by
  split
  case isTrue h => rw [Nat.min_eq_left (BitVec.le_def.mp h), BitVec.ofNat_toNat, BitVec.setWidth_eq]
  case isFalse h =>
    rw [BitVec.le_def, not_le] at h
    rw [Nat.min_eq_right h.le, BitVec.ofNat_toNat, BitVec.setWidth_eq]

theorem outsidePeriodRange_iff (w : Word) :
    (w = 0#32 ∨ 0xFFFF#32 < w) ↔ w.toNat = 0 ∨ 0xFFFF < w.toNat := by
  rw [← BitVec.toNat_inj, BitVec.lt_def]
  rfl

theorem eq_zext_iff_toNat_eq (w : Word) (p : Count16) : w = p.setWidth 32 ↔ w.toNat = p.toNat := by
  rw [← BitVec.toNat_inj, BitVec.toNat_setWidth_of_le (by decide)]

theorem writePeriod_store {g : GenId} {w : Word} {s : State} (hen : (genOf g s).en = false)
    (h1 : 1 ≤ w.toNat) (h2 : w.toNat ≤ 0xFFFF) :
    writePeriod g w s = .ok (setGen g { genOf g s with
      en := false
      period := BitVec.ofNat 16 w.toNat
      shd := BitVec.ofNat 16 (min (genOf g s).shd.toNat w.toNat)
      act := BitVec.ofNat 16 (min (genOf g s).shd.toNat w.toNat) } s) := by
  have hrange : ¬ (w = 0#32 ∨ 0xFFFF#32 < w) := by rw [outsidePeriodRange_iff]; omega
  have hp : (w.setWidth 16 : Count16).toNat = w.toNat := by rw [BitVec.toNat_setWidth]; omega
  simp only [writePeriod, hen, Bool.false_eq_true, if_false, if_neg hrange, ite_le_eq_ofNat_min, hp,
    BitVec.ofNat_toNat]

theorem writePeriod_current {g : GenId} {w : Word} {s : State} (hen : (genOf g s).en = true)
    (hw : w.toNat = (genOf g s).period.toNat) : writePeriod g w s = .ok s := by
  simp [writePeriod, hen, (eq_zext_iff_toNat_eq w _).mpr hw]

theorem writePeriod_locked {g : GenId} {w : Word} {s : State} (hen : (genOf g s).en = true)
    (hw : w.toNat ≠ (genOf g s).period.toNat) : writePeriod g w s = .error .locked := by
  simp [writePeriod, hen, eq_zext_iff_toNat_eq, hw]

theorem writePeriod_range {g : GenId} {w : Word} {s : State} (hen : (genOf g s).en = false)
    (hw : w.toNat = 0 ∨ 0xFFFF < w.toNat) : writePeriod g w s = .error .range := by
  simp only [writePeriod, hen, Bool.false_eq_true, if_false, outsidePeriodRange_iff, if_pos hw]

/-- Settles O40. Each clause is one outcome of the write rule. -/
theorem writeGeneratorPeriod : Obligations.WriteGeneratorPeriod := by
  refine ⟨fun w => ⟨decode_writeWord .aPeriod w, decode_writeWord .bPeriod w⟩, fun g w s => ?_⟩
  rw [exec_periodWrite_periodReg]
  refine ⟨fun hen h1 h2 => ?store, fun hen hw => ?current, fun hen hw => ?locked,
    fun hen hw => ?range⟩
  case store => exact performWrite_of_ok (writePeriod_store hen h1 h2)
  case current => exact performWrite_of_ok (writePeriod_current hen hw)
  case locked => exact performWrite_of_error (writePeriod_locked hen hw)
  case range => exact performWrite_of_error (writePeriod_range hen hw)

/-! The two outcomes of the write rule of g_DUTY (41_pwm_generator.md R117). -/

theorem clampDuty_eq_ofNat (v : Word) (p : Count16) :
    clampDuty v p = BitVec.ofNat 16 (min v.toNat p.toNat) := by
  rw [← clampDuty_toNat, BitVec.ofNat_toNat, BitVec.setWidth_eq]

theorem writeDuty_programmed {g : GenId} {w : Word} {s : State} (hper : (genOf g s).period ≠ 0#16) :
    writeDuty g w s = .ok (setGen g (dutyWrite w (genOf g s)) s) := if_neg hper

theorem writeDuty_state {g : GenId} {w : Word} {s : State} (hper : (genOf g s).period = 0#16) :
    writeDuty g w s = .error .state := if_pos hper

/-- Settles O41. The accepted outcome is DutyWrite, whose clamp is the number of
`clampDuty_eq_ofNat`. -/
theorem writeGeneratorDuty : Obligations.WriteGeneratorDuty := by
  refine ⟨fun w => ⟨decode_writeWord .aDuty w, decode_writeWord .bDuty w⟩, fun g w s => ?_⟩
  rw [exec_dutyRegWrite_dutyReg, ← clampDuty_eq_ofNat]
  refine ⟨fun hper => ?programmed, fun hper => ?state⟩
  case programmed => exact performWrite_of_ok (writeDuty_programmed hper)
  case state => exact performWrite_of_error (writeDuty_state hper)

end Sys2Proof.Machine
end

section
/-! PROOF. The statements of the family 41_pwm_generator.md about a generator in a cycle. -/

namespace Sys2Proof.Machine

/-- Settles O14. A cycle with RST low ends by driving the levels from the state it leaves
(`driveOutputs`); after a reset cycle both generators are stopped and both levels are low. -/
theorem outputLevelFollowsState : Obligations.OutputLevelFollowsState := by
  intro s t h
  have hlevel (g : Generator) : outLevel g = true ↔
      g.en = true ∧ (g.period.toNat : Int) - 1 - (g.cnt.toNat : Int) < (g.act.toNat : Int) := by
    simp [outLevel]
  obtain ⟨-, rfl⟩ | ⟨-, u, ⟨-, -, -, rfl⟩ | ⟨-, -, -, rfl⟩⟩ := step_cases h
  · simp [Generator.reset, Outputs.reset]
  · exact ⟨hlevel _, hlevel _⟩
  · exact ⟨hlevel _, hlevel _⟩

theorem pwmTick_iff (c : Clock) :
    pwmTick c = true ↔ c.diven = true ∧ c.psc.toNat = 2 ^ c.divlog2.toNat - 1 := by
  simp [pwmTick, pscAtEnd, divisor]

/-! The count of a running generator in phase 2 (41_pwm_generator.md R121, R123). -/

theorem countGenerator_boundary {g : Generator} (hen : g.en = true) (h0 : g.cnt = 0#16) :
    countGenerator true g = periodBoundary g := by
  simp [countGenerator, hen, h0]

theorem countGenerator_counts {g : Generator} (hen : g.en = true) (h0 : g.cnt ≠ 0#16) :
    countGenerator true g = { g with cnt := g.cnt - 1#16 } := by
  simp [countGenerator, hen, h0]

theorem countGenerator_no_tick (g : Generator) : countGenerator false g = g := by
  simp [countGenerator]

/-- Phase 3 leaves a running generator's EN, CNT, PERIOD and ACT alone, whatever the host and the ramp
engine do and in either order: after a cycle with RST low they are those of phase 2. -/
theorem step_running {g : GenId} {s t : State} (h : step s = .next t)
    (hrst : (cycleInput s).rst = false) (hen : (genOf g s).en = true) :
    (genOf g t).en = true ∧
      (genOf g t).cnt = (countGenerator (pwmTick s.clk) (genOf g s)).cnt ∧
      (genOf g t).period = (genOf g s).period ∧
      (genOf g t).act = (countGenerator (pwmTick s.clk) (genOf g s)).act := by
  have hc : (genOf g (countersPhase (spendInput s))).en = true := by simpa using hen
  obtain ⟨hr, -⟩ | ⟨-, u, ⟨-, -, he, rfl⟩ | ⟨-, -, he, rfl⟩⟩ := step_cases h
  · simp [hrst] at hr
  · obtain ⟨en1, cnt1, per1, act1⟩ := he.running g hc
    obtain ⟨en2, cnt2, per2, act2⟩ := rampPhase_running (timerTick s.timer) u g en1
    simp [en2, cnt2, per2, act2, cnt1, per1, act1]
  · obtain ⟨en1, cnt1, per1, act1⟩ := rampPhase_running (timerTick s.timer) _ g hc
    obtain ⟨en2, cnt2, per2, act2⟩ := he.running g en1
    simp [en2, cnt2, per2, act2, cnt1, per1, act1]

/-- Settles O11. By `step_running` CNT and ACT are those of phase 2, and each clause is one case of
its count. -/
theorem runningGeneratorCounts : Obligations.RunningGeneratorCounts := by
  intro g s t hrst hen h tick
  obtain ⟨hen', hcnt, hper, hact⟩ := step_running h hrst hen
  rw [hcnt, hact]
  refine ⟨fun ht h0 => ?boundary, fun ht h0 => ?counts, fun ht => ?noTick, hen', hper⟩
  case boundary =>
    rw [(pwmTick_iff s.clk).mpr ht, countGenerator_boundary hen h0]
    exact ⟨rfl, rfl⟩
  case counts =>
    rw [(pwmTick_iff s.clk).mpr ht, countGenerator_counts hen h0]
    exact ⟨rfl, rfl⟩
  case noTick =>
    have hno : pwmTick s.clk = false := by rw [← Bool.not_eq_true, pwmTick_iff]; exact ht
    rw [hno, countGenerator_no_tick]
    exact ⟨rfl, rfl⟩

/-! The host's transaction leaves a generator alone unless it is a write of one of the generator's own
registers. -/

/-- An operation is decoded from its own request word only. -/
theorem req_of_decode_op {q : ReqWord} {w : Word} {i : Instr} (h : decode q w = .op i) :
    q = (encode i).req := by
  have herr (code : ErrCode) : decode q w ≠ .error code := by simp [h]
  have hs : reqSize q = 2#2 := by
    by_contra hs; exact herr .width (by simp [decode, hs])
  have ha : (reqOffset q).extractLsb' 0 2 = 0#2 := by
    by_contra ha; exact herr .align (by simp [decode, hs, ha])
  have hx : reqX q = false := by
    by_contra hx; exact herr .unmapped (by simp [decode, hs, ha, hx])
  obtain ⟨r, hr⟩ : ∃ r, regAt (reqOffset q) = some r := by
    rw [← Option.ne_none_iff_exists']
    intro hr; exact herr .unmapped (by simp [decode, hs, ha, hx, hr])
  have hq := req_eq_word q r hs hx ((regAt_eq_some _ r).mp hr)
  cases hwe : reqWe q
  case false =>
    have hread : q = readWord r := by simpa [hwe] using hq
    rw [hread, decode_readWord] at h
    cases h
    rw [hread]; cases r <;> rfl
  case true =>
    have hwrite : q = writeWord r := by simpa [hwe] using hq
    rw [hwrite, decode_writeWord] at h
    rw [hwrite]; cases r <;> cases h <;> rfl

/-- A write leaves a generator alone if its rule does. -/
theorem performWrite_genOf {g : GenId} {r : Reg} {w : Word} {rule : Word → State → Except ErrCode State}
    {s u : State} (hrule : ∀ t, rule w s = .ok t → genOf g t = genOf g s)
    (h : performWrite r w rule s = .next u) : genOf g u = genOf g s := by
  obtain ⟨t, ht, rfl⟩ | ⟨code, -, rfl⟩ := performWrite_next h
  · rw [genOf_respondOkay, hrule t ht]
  · rw [genOf_busError]

theorem writeClkcfg_genOf {g : GenId} {w : Word} {s t : State} (h : writeClkcfg w s = .ok t) :
    genOf g t = genOf g s := by
  obtain rfl | ⟨-, -, rfl⟩ := writeClkcfg_ok h <;> simp

theorem writeTctrl_genOf {g : GenId} {w : Word} {s t : State} (h : writeTctrl w s = .ok t) :
    genOf g t = genOf g s := by
  obtain rfl | ⟨-, -, -, rfl⟩ | ⟨-, rfl⟩ := writeTctrl_ok h <;> simp

theorem writeTreload_genOf {g : GenId} {w : Word} {s t : State} (h : writeTreload w s = .ok t) :
    genOf g t = genOf g s := by
  obtain rfl | ⟨-, -, rfl⟩ := writeTreload_ok h <;> simp

theorem writeCtrl_genOf_other {g g' : GenId} {w : Word} {s t : State} (hne : g ≠ g')
    (h : writeCtrl g' w s = .ok t) : genOf g t = genOf g s := by
  obtain rfl | ⟨-, -, -, rfl⟩ := writeCtrl_ok h <;> simp [genOf_setGen_other hne]

theorem writePeriod_genOf_other {g g' : GenId} {w : Word} {s t : State} (hne : g ≠ g')
    (h : writePeriod g' w s = .ok t) : genOf g t = genOf g s := by
  obtain rfl | ⟨-, -, rfl⟩ := writePeriod_ok h <;> simp [genOf_setGen_other hne]

theorem writeDuty_genOf_other {g g' : GenId} {w : Word} {s t : State} (hne : g ≠ g')
    (h : writeDuty g' w s = .ok t) : genOf g t = genOf g s := by
  obtain ⟨-, rfl⟩ := writeDuty_ok h
  exact genOf_setGen_other hne _ s

/-- An operation that is no write of a generator's own registers leaves the generator alone. -/
theorem exec_genOf_other {g : GenId} {i : Instr} {s u : State} (hctrl : ∀ w, i ≠ ctrlWrite g w)
    (hperiod : ∀ w, i ≠ periodWrite g w) (hduty : ∀ w, i ≠ dutyRegWrite g w)
    (h : exec i s = .next u) : genOf g u = genOf g s := by
  cases i
  case wrClkcfg w => exact performWrite_genOf (fun _ => writeClkcfg_genOf) h
  case wrTctrl w => exact performWrite_genOf (fun _ => writeTctrl_genOf) h
  case wrTreload w => exact performWrite_genOf (fun _ => writeTreload_genOf) h
  case wrACtrl w =>
    have hne : g ≠ .a := by rintro rfl; exact hctrl w rfl
    exact performWrite_genOf (fun _ => writeCtrl_genOf_other hne) h
  case wrBCtrl w =>
    have hne : g ≠ .b := by rintro rfl; exact hctrl w rfl
    exact performWrite_genOf (fun _ => writeCtrl_genOf_other hne) h
  case wrAPeriod w =>
    have hne : g ≠ .a := by rintro rfl; exact hperiod w rfl
    exact performWrite_genOf (fun _ => writePeriod_genOf_other hne) h
  case wrBPeriod w =>
    have hne : g ≠ .b := by rintro rfl; exact hperiod w rfl
    exact performWrite_genOf (fun _ => writePeriod_genOf_other hne) h
  case wrADuty w =>
    have hne : g ≠ .a := by rintro rfl; exact hduty w rfl
    exact performWrite_genOf (fun _ => writeDuty_genOf_other hne) h
  case wrBDuty w =>
    have hne : g ≠ .b := by rintro rfl; exact hduty w rfl
    exact performWrite_genOf (fun _ => writeDuty_genOf_other hne) h
  all_goals
    cases h
    exact genOf_respondOkay g _ s

/-- A cycle without a write word of the generator's own registers: the host's part leaves the generator
alone. -/
theorem perform_genOf_other {g : GenId} {req : Option Request} {s u : State}
    (hreq : ∀ rq, req = some rq → rq.req ≠ writeWord (ctrlReg g) ∧
      rq.req ≠ writeWord (periodReg g) ∧ rq.req ≠ writeWord (dutyReg g))
    (h : perform req s = .next u) : genOf g u = genOf g s := by
  cases req with
  | none => cases h; rfl
  | some rq =>
    obtain ⟨hctrl, hperiod, hduty⟩ := hreq rq rfl
    cases hd : decode rq.req rq.wdata with
    | error code =>
      simp only [perform, hd] at h
      cases h
      exact genOf_busError g _ _ s
    | op i =>
      simp only [perform, hd] at h
      have hword := req_of_decode_op hd
      refine exec_genOf_other ?_ ?_ ?_ h
      · rintro w rfl; exact hctrl (hword.trans (by cases g <;> rfl))
      · rintro w rfl; exact hperiod (hword.trans (by cases g <;> rfl))
      · rintro w rfl; exact hduty (hword.trans (by cases g <;> rfl))

/-- The ramp engine never touches B, and touches A only on a timer tick (42_timer_ramp.md R150). -/
theorem rampPhase_genOf {g : GenId} {tick : Bool} (htick : g = .a → tick = false) (s : State) :
    genOf g (rampPhase tick s) = genOf g s := by
  cases g
  case a => rw [htick rfl, rampPhase_false]
  case b => exact rampPhase_genB tick s

/-- A generator that is stopped before and after a cycle with RST low keeps its count: phase 2 leaves a
stopped generator alone, and phase 3 changes a count only by an enable. -/
theorem step_stopped_cnt {g : GenId} {s t : State} (h : step s = .next t)
    (hrst : (cycleInput s).rst = false) (hs : (genOf g s).en = false) (ht : (genOf g t).en = false) :
    (genOf g t).cnt = (genOf g s).cnt := by
  have hc : genOf g (countersPhase (spendInput s)) = genOf g s := by
    simp [countGenerator_stopped _ _ hs]
  obtain ⟨hr, -⟩ | ⟨-, u, ⟨-, -, he, rfl⟩ | ⟨-, -, he, rfl⟩⟩ := step_cases h
  · simp [hrst] at hr
  · obtain ⟨hen, hcnt, -⟩ := rampPhase_gen (timerTick s.timer) u g
    rw [genOf_driveOutputs] at ht ⊢
    rw [hcnt, (he.stopped g (hen.symm.trans ht)).2, hc]
  · obtain ⟨-, hcnt, -⟩ := rampPhase_gen (timerTick s.timer) (countersPhase (spendInput s)) g
    rw [genOf_driveOutputs] at ht ⊢
    rw [(he.stopped g ht).2, hcnt, hc]

/-- A stopped generator is left alone by a cycle with RST low that has no write of its own registers
and, for A, no timer tick. -/
theorem step_stopped_frame {g : GenId} {s t : State} (h : step s = .next t)
    (hrst : (cycleInput s).rst = false) (hs : (genOf g s).en = false)
    (hreq : ∀ rq, (cycleInput s).request = some rq → rq.req ≠ writeWord (ctrlReg g) ∧
      rq.req ≠ writeWord (periodReg g) ∧ rq.req ≠ writeWord (dutyReg g))
    (htick : g = .a → timerTick s.timer = false) : genOf g t = genOf g s := by
  have hc : genOf g (countersPhase (spendInput s)) = genOf g s := by
    simp [countGenerator_stopped _ _ hs]
  obtain ⟨hr, -⟩ | ⟨-, u, ⟨-, hp, -, rfl⟩ | ⟨-, hp, -, rfl⟩⟩ := step_cases h
  · simp [hrst] at hr
  · rw [genOf_driveOutputs, rampPhase_genOf htick, perform_genOf_other hreq hp, hc]
  · rw [genOf_driveOutputs, perform_genOf_other hreq hp, rampPhase_genOf htick, hc]

/-- Settles O12. The count of a stopped generator, its frame, and, since `step_running` keeps a running
generator running in every cycle with RST low, the reset as the only way to stop. -/
theorem stoppedGeneratorHolds : Obligations.StoppedGeneratorHolds := by
  intro g s t h
  refine ⟨step_stopped_cnt h, fun hrst hs hreq hno => ?frame, fun hs ht => ?reset⟩
  case frame =>
    refine step_stopped_frame h hrst hs hreq fun ha => ?_
    simpa [timerTick, imp_iff_not_or] using hno ha
  case reset =>
    by_contra hrst
    obtain ⟨hrun, -⟩ := step_running h (by simpa using hrst) hs
    simp [ht] at hrun

end Sys2Proof.Machine
end

section
/-! PROOF. The statements of the family 42_timer_ramp.md about the operations on the timer. -/

namespace Sys2Proof.Machine

/-- Settles O35. Each operation is the read of its register, and EN's word is the number of
`flagWord_eq`. -/
theorem readTimerRegisters : Obligations.ReadTimerRegisters := by
  refine ⟨fun w => ⟨decode_readWord .tctrl w, decode_readWord .treload w, decode_readWord .tcount w⟩,
    fun s => ?_⟩
  rw [← flagWord_eq, BitVec.ofNat_toNat, BitVec.ofNat_toNat]
  exact ⟨exec_readOp .tctrl s, exec_readOp .treload s, exec_readOp .tcount s⟩

/-! The four outcomes of the write rule of TRELOAD (42_timer_ramp.md R142), on WDATA as a number. -/

theorem outsideReloadRange_iff (w : Word) :
    (w = 0#32 ∨ 0xFFFFFF#32 < w) ↔ w.toNat = 0 ∨ 0xFFFFFF < w.toNat := by
  rw [← BitVec.toNat_inj, BitVec.lt_def]
  rfl

theorem eq_zext24_iff_toNat_eq (w : Word) (n : Count24) : w = n.setWidth 32 ↔ w.toNat = n.toNat := by
  rw [← BitVec.toNat_inj, BitVec.toNat_setWidth_of_le (by decide)]

theorem writeTreload_store {w : Word} {s : State} (hen : s.timer.en = false)
    (h1 : 1 ≤ w.toNat) (h2 : w.toNat ≤ 0xFFFFFF) :
    writeTreload w s = .ok { s with
      timer := { en := false, n := BitVec.ofNat 24 w.toNat, tcnt := s.timer.tcnt } } := by
  have hrange : ¬ (w = 0#32 ∨ 0xFFFFFF#32 < w) := by rw [outsideReloadRange_iff]; omega
  simp only [writeTreload, hen, Bool.false_eq_true, if_false, if_neg hrange, BitVec.ofNat_toNat]

theorem writeTreload_current {w : Word} {s : State} (hen : s.timer.en = true)
    (hw : w.toNat = s.timer.n.toNat) : writeTreload w s = .ok s := by
  simp [writeTreload, hen, (eq_zext24_iff_toNat_eq w _).mpr hw]

theorem writeTreload_locked {w : Word} {s : State} (hen : s.timer.en = true)
    (hw : w.toNat ≠ s.timer.n.toNat) : writeTreload w s = .error .locked := by
  simp [writeTreload, hen, eq_zext24_iff_toNat_eq, hw]

theorem writeTreload_range {w : Word} {s : State} (hen : s.timer.en = false)
    (hw : w.toNat = 0 ∨ 0xFFFFFF < w.toNat) : writeTreload w s = .error .range := by
  simp only [writeTreload, hen, Bool.false_eq_true, if_false, outsideReloadRange_iff, if_pos hw]

/-- Settles O43. Each clause is one outcome of the write rule. -/
theorem writeTimerReload : Obligations.WriteTimerReload := by
  refine ⟨decode_writeWord .treload, fun w s => ?_⟩
  rw [exec_wrTreload]
  refine ⟨fun hen h1 h2 => ?store, fun hen hw => ?current, fun hen hw => ?locked,
    fun hen hw => ?range⟩
  case store => exact performWrite_of_ok (writeTreload_store hen h1 h2)
  case current => exact performWrite_of_ok (writeTreload_current hen hw)
  case locked => exact performWrite_of_error (writeTreload_locked hen hw)
  case range => exact performWrite_of_error (writeTreload_range hen hw)

end Sys2Proof.Machine
end

section
/-! PROOF. The statements of the family 42_timer_ramp.md about the timer in a cycle. -/

namespace Sys2Proof.Machine

theorem timerTick_iff (x : Timer) : timerTick x = true ↔ x.en = true ∧ x.tcnt = 0#24 := by
  simp [timerTick]

theorem countTimer_running {x : Timer} (hen : x.en = true) :
    countTimer x = { x with tcnt := if x.tcnt = 0#24 then x.n - 1#24 else x.tcnt - 1#24 } :=
  if_pos hen

/-- In a cycle with RST low and either order, the timer is that of phase 2 with one host effect on it:
the ramp step, before or after, touches neither the timer nor EN of A. -/
theorem step_timer {s t : State} (h : step s = .next t) (hrst : (cycleInput s).rst = false) :
    ∃ c u, Effect c u ∧ c.timer = countTimer s.timer ∧ c.genA.en = s.genA.en ∧
      t.timer = u.timer := by
  obtain ⟨hr, -⟩ | ⟨-, u, ⟨-, -, he, rfl⟩ | ⟨-, -, he, rfl⟩⟩ := step_cases h
  · simp [hrst] at hr
  · exact ⟨_, u, he, by simp, by simp, by simp⟩
  · obtain ⟨hen, -⟩ := rampPhase_gen (timerTick s.timer) (countersPhase (spendInput s)) .a
    exact ⟨_, u, he, by simp, by simpa using hen, rfl⟩

/-- Settles O13. `step_timer` leaves one host effect on the timer of phase 2: it keeps the count and
the reload of a running timer (`Effect.timer_running`), and a stopped one holds or is started
(`Effect.timer_stopped`). -/
theorem timerCountsSystemCycles : Obligations.TimerCountsSystemCycles := by
  intro s t hrst h
  obtain ⟨c, u, he, hc, ha, ht⟩ := step_timer h hrst
  rw [ht]
  have hstopped (hen : s.timer.en = false) := he.timer_stopped (by rw [hc, countTimer_en, hen])
  refine ⟨timerTick_iff s.timer, fun hen => ?running, fun hen hen' => ?holds, fun hen hen' => ?started⟩
  case running =>
    obtain ⟨htcnt, hn⟩ := he.timer_running (by rw [hc, countTimer_en, hen])
    rw [htcnt, hn, hc, countTimer_running hen]
    exact ⟨rfl, rfl⟩
  case holds =>
    obtain ⟨-, htcnt⟩ | ⟨hstart, -⟩ := hstopped hen
    · rw [htcnt, hc, countTimer_stopped _ hen]
    · simp [hstart] at hen'
  case started =>
    obtain ⟨hen0, -⟩ | ⟨hstart, hn, hrun⟩ := hstopped hen
    · simp [hen0] at hen'
    · rw [hc, countTimer_n] at hstart hn
      exact ⟨by rw [hstart], by rw [hstart], hn, ha.symm.trans hrun⟩

end Sys2Proof.Machine
end

section
/-! PROOF. The statements of the family 42_timer_ramp.md about the ramp engine. -/

namespace Sys2Proof.Machine

theorem rampSteps_iff (e : Word) : rampSteps e = true ↔ e.toNat % 5 = 0 := by
  simp [rampSteps, Config.rampDiv, ← BitVec.toNat_inj]

/-- The step test as the statements write it: on elapsed_ms after its increment. -/
theorem rampSteps_increment_iff (e : Word) :
    rampSteps (e + 1#32) = true ↔ (e.toNat + 1) % 2 ^ 32 % 5 = 0 := by
  rw [rampSteps_iff, BitVec.toNat_add, BitVec.toNat_ofNat]

/-! The three outcomes of one advance of the ramp (42_timer_ramp.md R151 to R153). -/

theorem rampAdvance_noStep {r : Ramp} (cmp : WrapCmp) (h : ¬ rampSteps (r.elapsedMs + 1#32) = true) :
    rampAdvance cmp r = { r with elapsedMs := r.elapsedMs + 1#32 } := if_neg h

theorem rampAdvance_up {r : Ramp} (cmp : WrapCmp) (h : rampSteps (r.elapsedMs + 1#32) = true)
    (hup : r.direction = .up) :
    rampAdvance cmp r = rampUp cmp { r with elapsedMs := r.elapsedMs + 1#32 } := by
  simp [rampAdvance, h, hup]

theorem rampAdvance_down {r : Ramp} (cmp : WrapCmp) (h : rampSteps (r.elapsedMs + 1#32) = true)
    (hdown : r.direction = .down) :
    rampAdvance cmp r = rampDown { r with elapsedMs := r.elapsedMs + 1#32 } := by
  simp [rampAdvance, h, hdown]

@[simp] theorem rampUp_direction (cmp : WrapCmp) (r : Ramp) :
    (rampUp cmp r).direction = r.direction := rfl

theorem rampDown_positive {r : Ramp} (h : 0 < r.duty.toNat) :
    rampDown r = { r with duty := r.duty - Config.rampStep } :=
  if_pos (show 0#32 < r.duty from BitVec.lt_def.mpr h)

theorem rampDown_zero {r : Ramp} (h : r.duty.toNat = 0) : rampDown r = { r with direction := .up } :=
  if_neg (by simp [BitVec.lt_def, h])

/-- Settles O22. Off a step the advance is the increment alone. -/
theorem elapsedCountsTicks : Obligations.ElapsedCountsTicks := by
  refine fun cmp r => ⟨?elapsed, fun hno => ?noStep⟩
  case elapsed => rw [rampAdvance_elapsed, BitVec.toNat_add, BitVec.toNat_ofNat]
  case noStep =>
    rw [ne_eq, ← rampSteps_increment_iff] at hno
    rw [rampAdvance_noStep cmp hno]
    exact ⟨rfl, rfl⟩

/-! The wrap test on the duty as a number (42_timer_ramp.md R152). -/

theorem rampWraps_ge (d : Word) : rampWraps .ge d = decide (56250 ≤ d.toNat) := rfl

theorem rampWraps_gt (d : Word) : rampWraps .gt d = decide (56250 < d.toNat) := rfl

/-- Settles O23. The step is `rampUp`, whose sum and whose wrap test are read as numbers. -/
theorem rampUpBranch : Obligations.RampUpBranch := by
  intro cmp r hstep hup
  have hsum : (r.duty + Config.rampStep).toNat = (r.duty.toNat + 50) % 2 ^ 32 :=
    BitVec.toNat_add r.duty Config.rampStep
  rw [rampAdvance_up cmp ((rampSteps_increment_iff _).mpr hstep) hup]
  refine ⟨hup, ?_⟩
  dsimp only [rampUp]
  rw [apply_ite BitVec.toNat, ← hsum]
  cases cmp with
  | ge => rw [rampWraps_ge]; rfl
  | gt => rw [rampWraps_gt]; rfl

/-- No advance of the ramp enters DOWN: only its DOWN branch writes the direction, and it writes UP
(42_timer_ramp.md R153). -/
theorem rampAdvance_direction_down {cmp : WrapCmp} {r : Ramp}
    (h : (rampAdvance cmp r).direction = .down) : r.direction = .down := by
  by_cases hstep : rampSteps (r.elapsedMs + 1#32) = true
  case neg => rwa [rampAdvance_noStep cmp hstep] at h
  case pos =>
    cases hdir : r.direction with
    | down => rfl
    | up => rwa [rampAdvance_up cmp hstep hdir, rampUp_direction, hdir] at h

/-- The ramp in a cycle with RST low, whatever the host does and in either order
(42_timer_ramp.md R150). -/
theorem step_ramp {s t : State} (h : step s = .next t) (hrst : (cycleInput s).rst = false) :
    t.ramp = if timerTick s.timer then rampAdvance s.params.wrapCmp s.ramp else s.ramp := by
  obtain ⟨hr, -⟩ | ⟨-, u, ⟨-, -, he, rfl⟩ | ⟨-, -, he, rfl⟩⟩ := step_cases h
  · simp [hrst] at hr
  · simp [he.ramp_eq, he.params_eq]
  · simp [he.ramp_eq]

/-- Settles O24. The step is `rampDown`, by the two cases of its duty; and of a step of the machine,
a reset sets UP and every other cycle advances the ramp or leaves it (`step_ramp`). -/
theorem rampDownBranch : Obligations.RampDownBranch := by
  refine ⟨fun cmp r hstep hdown => ?branch, fun s t h hdir => ?noStepEnters⟩
  case branch =>
    rw [rampAdvance_down cmp ((rampSteps_increment_iff _).mpr hstep) hdown]
    refine ⟨fun hpos => ?positive, fun hzero => ?zero⟩
    case positive =>
      rw [rampDown_positive (r := { r with elapsedMs := r.elapsedMs + 1#32 }) hpos]
      exact ⟨hdown, (BitVec.toNat_sub _ _).trans (by rw [Nat.add_comm]; rfl)⟩
    case zero =>
      rw [rampDown_zero (r := { r with elapsedMs := r.elapsedMs + 1#32 }) hzero]
      exact ⟨rfl, BitVec.eq_of_toNat_eq hzero⟩
  case noStepEnters =>
    cases hrst : (cycleInput s).rst
    case true =>
      rw [step_reset s hrst] at h
      cases h
      simp [Ramp.reset] at hdir
    case false =>
      rw [step_ramp h hrst] at hdir
      split at hdir
      · exact rampAdvance_direction_down hdir
      · exact hdir

/-! The host and a running generator: only a write of its duty reaches it. -/

/-- While a generator runs, the writes of its CTRL and PERIOD are turned away or change nothing
(41_pwm_generator.md R116, R118), so only a write of its duty changes it. -/
theorem exec_genOf_running {g : GenId} {i : Instr} {s u : State} (hen : (genOf g s).en = true)
    (hduty : ∀ w, i ≠ dutyRegWrite g w) (h : exec i s = .next u) : genOf g u = genOf g s := by
  by_cases hctrl : ∃ w, i = ctrlWrite g w
  case pos =>
    obtain ⟨w, rfl⟩ := hctrl
    rw [exec_ctrlWrite_ctrlReg] at h
    refine performWrite_genOf (fun t ht => ?_) h
    obtain rfl | ⟨hstop, -⟩ := writeCtrl_ok ht
    · rfl
    · simp [hen] at hstop
  by_cases hperiod : ∃ w, i = periodWrite g w
  case pos =>
    obtain ⟨w, rfl⟩ := hperiod
    rw [exec_periodWrite_periodReg] at h
    refine performWrite_genOf (fun t ht => ?_) h
    obtain rfl | ⟨hstop, -⟩ := writePeriod_ok ht
    · rfl
    · simp [hen] at hstop
  exact exec_genOf_other (not_exists.mp hctrl) (not_exists.mp hperiod) hduty h

theorem perform_genOf_running {g : GenId} {req : Option Request} {s u : State}
    (hen : (genOf g s).en = true) (hreq : ∀ rq, req = some rq → rq.req ≠ writeWord (dutyReg g))
    (h : perform req s = .next u) : genOf g u = genOf g s := by
  cases req with
  | none => cases h; rfl
  | some rq =>
    cases hd : decode rq.req rq.wdata with
    | error code =>
      simp only [perform, hd] at h
      cases h
      exact genOf_busError g _ _ s
    | op i =>
      simp only [perform, hd] at h
      refine exec_genOf_running hen ?_ h
      rintro w rfl
      exact hreq rq rfl ((req_of_decode_op hd).trans (by cases g <;> rfl))

/-- Step 3 of the ramp engine on A's shadow duty, by the ramp it leaves (42_timer_ramp.md R154). -/
theorem rampStep_genA_shd (s : State) :
    (rampStep s).genA.shd =
      if rampWrites s.params.writePolicy (rampSteps (rampStep s).ramp.elapsedMs)
      then clampDuty (rampStep s).ramp.duty s.genA.period else s.genA.shd := by
  rw [rampStep_genA, rampStep_ramp, apply_ite Generator.shd, dutyWrite_shd]

/-- On a tick with A running and no host write of A_DUTY, A.SHD is the ramp engine's, in either order:
the host leaves A alone before or after the ramp step. -/
theorem step_tick_genA_shd {s t : State} (h : step s = .next t) (hrst : (cycleInput s).rst = false)
    (htick : timerTick s.timer = true) (hen : s.genA.en = true)
    (hreq : ∀ rq, (cycleInput s).request = some rq → rq.req ≠ writeWord (dutyReg .a)) :
    t.genA.shd =
      if rampWrites s.params.writePolicy (rampSteps t.ramp.elapsedMs)
      then clampDuty t.ramp.duty s.genA.period else s.genA.shd := by
  obtain ⟨hcen, hperiod, hshd, hparams⟩ : (countersPhase (spendInput s)).genA.en = s.genA.en ∧
      (countersPhase (spendInput s)).genA.period = s.genA.period ∧
      (countersPhase (spendInput s)).genA.shd = s.genA.shd ∧
      (countersPhase (spendInput s)).params = s.params := by simp
  have hc : (genOf .a (countersPhase (spendInput s))).en = true := hcen.trans hen
  obtain ⟨hr, -⟩ | ⟨-, u, ⟨-, hp, he, rfl⟩ | ⟨-, hp, he, rfl⟩⟩ := step_cases h
  · simp [hrst] at hr
  · have hu : u.genA = (countersPhase (spendInput s)).genA := perform_genOf_running hc hreq hp
    rw [htick, rampPhase_true, driveOutputs_genA, driveOutputs_ramp, rampStep_genA_shd, hu,
      he.params_eq, hparams, hperiod, hshd]
  · have hrun := (rampPhase_running (timerTick s.timer) _ .a hc).1
    have hu : u.genA = (rampPhase (timerTick s.timer) (countersPhase (spendInput s))).genA :=
      perform_genOf_running hrun hreq hp
    rw [driveOutputs_genA, driveOutputs_ramp, hu, he.ramp_eq, htick, rampPhase_true,
      rampStep_genA_shd, hparams, hperiod, hshd]

/-- Settles O25. `step_tick_genA_shd` gives A.SHD by the test whether the engine writes; the test
passes under EVERY_TICK and on a step, and fails under STEP_ONLY off a step. -/
theorem rampWritesGeneratorA : Obligations.RampWritesGeneratorA := by
  intro s t hrst hen htcnt ha hreq h
  have hshd := step_tick_genA_shd h hrst ((timerTick_iff _).mpr ⟨hen, htcnt⟩) ha hreq
  rw [hshd]
  refine ⟨fun hwrites => ?writes, fun hpol hno => ?stays⟩
  case writes =>
    have hw : rampWrites s.params.writePolicy (rampSteps t.ramp.elapsedMs) = true := by
      rw [← rampSteps_iff] at hwrites
      obtain hpol | hstep := hwrites
      · rw [hpol]; rfl
      · rw [hstep]; cases s.params.writePolicy <;> rfl
    rw [if_pos hw, clampDuty_toNat]
  case stays =>
    rw [ne_eq, ← rampSteps_iff] at hno
    rw [hpol]
    exact if_neg hno

end Sys2Proof.Machine
end

section
/-! PROOF. The statements of the family 43_error_status.md about the reads of the error record. -/

namespace Sys2Proof.Machine

theorem errstatWord_eq_ofNat (e : ErrorStatus) :
    errstatWord e =
      BitVec.ofNat 32 (65536 * e.req.toNat + 256 * e.count.toNat + e.code.toNat) := by
  rw [← errstatWord_toNat, BitVec.ofNat_toNat, BitVec.setWidth_eq]

/-- Settles O36. Each operation is the read of its register, which changes only the response, and
ERRSTAT's word is the number of `errstatWord_eq_ofNat`. -/
theorem readErrorRecord : Obligations.ReadErrorRecord := by
  refine ⟨fun w => ⟨decode_readWord .errstat w, decode_readWord .errdata w⟩, fun s => ?_⟩
  rw [← errstatWord_eq_ofNat]
  exact ⟨exec_readOp .errstat s, exec_readOp .errdata s⟩

end Sys2Proof.Machine
end

section
/-! PROOF. The statements of the family 60_exceptions.md about the bus error. -/

namespace Sys2Proof.Machine

/-! An operation answers ERROR only as a write whose rule raises a code, and the code does not depend
on the error record (60_exceptions.md R180, R182). -/

theorem performWrite_error_any_record {r : Reg} {w : Word} {rule : Word → State → Except ErrCode State}
    {s v : State}
    (hrule : ∀ code e, rule w s = .error code → rule w { s with err := e } = .error code)
    (h : performWrite r w rule s = .next v) (hresp : v.out.resp = .error) :
    ∃ code, ∀ e, performWrite r w rule { s with err := e } =
      .next (busError code ⟨writeWord r, w⟩ { s with err := e }) := by
  obtain ⟨t, -, rfl⟩ | ⟨code, hcode, -⟩ := performWrite_next h
  · simp at hresp
  · exact ⟨code, fun e => performWrite_of_error (hrule code e hcode)⟩

theorem performRead_not_error {r : Reg} {s v : State} (h : performRead r s = .next v) :
    v.out.resp ≠ .error := by
  cases h; simp

theorem exec_error_any_record {i : Instr} {s v : State} (h : exec i s = .next v)
    (hresp : v.out.resp = .error) :
    isWrite i = true ∧ ∃ code, ∀ e, exec i { s with err := e } =
      .next (busError code (encode i) { s with err := e }) := by
  cases i
  case wrClkcfg w =>
    exact ⟨rfl, performWrite_error_any_record (fun _ => writeClkcfg_error_any_record) h hresp⟩
  case wrACtrl w =>
    exact ⟨rfl, performWrite_error_any_record (fun _ => writeCtrl_error_any_record) h hresp⟩
  case wrAPeriod w =>
    exact ⟨rfl, performWrite_error_any_record (fun _ => writePeriod_error_any_record) h hresp⟩
  case wrADuty w =>
    exact ⟨rfl, performWrite_error_any_record (fun _ => writeDuty_error_any_record) h hresp⟩
  case wrBCtrl w =>
    exact ⟨rfl, performWrite_error_any_record (fun _ => writeCtrl_error_any_record) h hresp⟩
  case wrBPeriod w =>
    exact ⟨rfl, performWrite_error_any_record (fun _ => writePeriod_error_any_record) h hresp⟩
  case wrBDuty w =>
    exact ⟨rfl, performWrite_error_any_record (fun _ => writeDuty_error_any_record) h hresp⟩
  case wrTctrl w =>
    exact ⟨rfl, performWrite_error_any_record (fun _ => writeTctrl_error_any_record) h hresp⟩
  case wrTreload w =>
    exact ⟨rfl, performWrite_error_any_record (fun _ => writeTreload_error_any_record) h hresp⟩
  all_goals exact absurd hresp (performRead_not_error h)

/-- A write is decoded from its own transaction only, so its bus error records the request as it came. -/
theorem encode_of_decode_write {rq : Request} {i : Instr} (h : decode rq.req rq.wdata = .op i)
    (hwrite : isWrite i = true) : encode i = rq := by
  obtain ⟨q, w⟩ := rq
  obtain rfl : q = (encode i).req := req_of_decode_op h
  cases i <;> cases hwrite
  all_goals
    cases h.symm.trans (decode_writeWord _ w)
    rfl

/-- The code of an error of the request rq on the state u: the one the decode gives, or the one that the
decoded operation raises on u whatever the error record holds (60_exceptions.md R182). -/
def RaisesCode (code : ErrCode) (rq : Request) (u : State) : Prop :=
  match decode rq.req rq.wdata with
  | .error c => code = c
  | .op i => ∀ e : ErrorStatus,
    exec i { u with err := e } = .next (busError code rq { u with err := e })

/-- A transaction that answers ERROR is the bus error of its code on the state it acts on. -/
theorem perform_error {rq : Request} {u v : State} (h : perform (some rq) u = .next v)
    (hresp : v.out.resp = .error) : ∃ code, RaisesCode code rq u ∧ v = busError code rq u := by
  unfold RaisesCode
  cases hd : decode rq.req rq.wdata with
  | error code =>
    simp only [perform, hd] at h
    cases h
    exact ⟨code, rfl, rfl⟩
  | op i =>
    simp only [perform, hd] at h
    obtain ⟨hwrite, code, hraise⟩ := exec_error_any_record h hresp
    rw [encode_of_decode_write hd hwrite] at hraise
    cases h.symm.trans (hraise u.err)
    exact ⟨code, hraise, rfl⟩

/-- Settles O49. In either order `perform_error` makes the transaction a bus error on the state it acts
on, and what follows it in the cycle leaves that error beside the rest
(`driveOutputs_rampPhase_busError`; with RAMP_FIRST only the output levels follow). -/
theorem erroringTransactionIsPrecise : Obligations.ErroringTransactionIsPrecise := by
  intro s t rq order h hresp
  rw [step_decideInput] at h
  obtain ⟨ho, v, hv, -, hrun⟩ | ⟨ho, v, hv, -, hrun⟩ := runCycle_cases ⟨false, some rq, order⟩ s
  case inl =>
    obtain rfl : order = .busFirst := ho
    cases hrun.symm.trans h
    obtain ⟨code, hcode, rfl⟩ := perform_error hv (by simpa using hresp)
    exact ⟨code, _, hcode, rfl, driveOutputs_rampPhase_busError code rq _ _⟩
  case inr =>
    obtain rfl : order = .rampFirst := ho
    cases hrun.symm.trans h
    obtain ⟨code, hcode, rfl⟩ := perform_error hv (by simpa using hresp)
    have hprecise := driveOutputs_rampPhase_busError code rq false
      (rampPhase (timerTick s.timer) (countersPhase s))
    rw [rampPhase_err, countersPhase_err] at hprecise
    exact ⟨code, _, hcode, rfl, hprecise⟩

/-! ErrorCapture on an empty record and on a filled one (43_error_status.md R170). -/

theorem reqWe_iff (q : ReqWord) : reqWe q = true ↔ 32768 ≤ q.toNat := by
  have hlt := q.isLt
  simp only [reqWe, BitVec.getLsbD, Nat.testBit_eq_decide_div_mod_eq, decide_eq_true_eq]
  omega

theorem errorCapture_first {e : ErrorStatus} (code : ErrCode) (rq : Request) (h : e.code = 0#4) :
    (errorCapture code rq e).code = errCodeNum code ∧ (errorCapture code rq e).req = rq.req ∧
      (errorCapture code rq e).data = if reqWe rq.req then rq.wdata else 0#32 :=
  ⟨if_pos h, if_pos h, if_pos h⟩

theorem errorCapture_later {e : ErrorStatus} (code : ErrCode) (rq : Request) (h : e.code ≠ 0#4) :
    (errorCapture code rq e).code = e.code ∧ (errorCapture code rq e).req = e.req ∧
      (errorCapture code rq e).data = e.data :=
  ⟨if_neg h, if_neg h, if_neg h⟩

/-- Settles O48. The record after the error is `errorCapture`'s, whose count saturates
(`errorCapture_count`) and whose other values depend on whether a code stands in it. -/
theorem busErrorRecordsTheFirst : Obligations.BusErrorRecordsTheFirst := by
  intro code rq s
  refine ⟨rfl, errorCapture_count code rq s.err, fun hempty => ?first,
    errorCapture_later code rq⟩
  case first =>
    obtain ⟨hcode, hreq, hdata⟩ := errorCapture_first code rq hempty
    refine ⟨?_, hreq, hdata.trans (if_congr (reqWe_iff rq.req) rfl rfl)⟩
    rw [busError_err, hcode]
    cases code <;> rfl

end Sys2Proof.Machine
end

section
/-! PROOF. The statements of the family 70_reset_and_hazards.md about a cycle with RST high. -/

namespace Sys2Proof.Machine

/-- Settles O6. A reset cycle only spends its inputs and resets the block (`step_reset`); the block's
components are then those of `State.reset` (the `resetBlock` lemmas), whose values are `resetValues`. -/
theorem resetCycleClearsEverything : Obligations.ResetCycleClearsEverything := by
  intro s hrst
  refine ⟨resetBlock (spendInput s), step_reset s hrst, ?values⟩
  case values =>
    simp only [resetBlock_clk, resetBlock_genA, resetBlock_genB, resetBlock_timer, resetBlock_ramp,
      resetBlock_err, resetBlock_out]
    exact resetValues

end Sys2Proof.Machine
end

section
/-! PROOF. The statements of the family 30_encoding.md about the operations of the opcode map. -/

namespace Sys2Proof

/-- Every operation's transaction has the form of the map (30_encoding.md R81 to R84). -/
theorem encode_form (i : Instr) : Laws.Encoding.Statement i := by
  open Laws.Encoding in
  cases i
  exacts [rdClkcfg, wrClkcfg _, rdACtrl, wrACtrl _, rdAPeriod, wrAPeriod _, rdADuty, wrADuty _,
    rdADutyact, rdACount, rdBCtrl, wrBCtrl _, rdBPeriod, wrBPeriod _, rdBDuty, wrBDuty _, rdBDutyact,
    rdBCount, rdTctrl, wrTctrl _, rdTreload, wrTreload _, rdTcount, rdErrstat, rdErrdata]

/-- An operation is read back from its request word, a read with any WDATA and a write with its own. -/
theorem decode_encode {i : Instr} {w : Word} (hw : isWrite i = true → (encode i).wdata = w) :
    decode (encode i).req w = .op i := by
  obtain ⟨-, hsize, hx, hwe, haligned, -, r, hr, hop⟩ := encode_form i
  cases hi : isWrite i
  case false =>
    have hread : readOp r = i := by simpa [hi] using hop
    simp [decode, hsize, haligned, hx, hr, hwe, hi, hread]
  case true =>
    have hwrite : writeOp r w = some i := by simpa [hi, hw hi] using hop
    simp [decode, hsize, haligned, hx, hr, hwe, hi, hwrite]

/-- Settles O2. Encoding first, the operation is read back (`decode_encode`); decoding first, the request
word and, for a write, the whole transaction are the operation's own (`req_of_decode_op`,
`encode_of_decode_write`). -/
theorem decodeAndEncodeAgree : Obligations.DecodeAndEncodeAgree := by
  refine ⟨fun i _ => decode_encode fun _ => rfl, fun q w i => ⟨fun h => ?own, fun h => ?readBack⟩⟩
  case own =>
    refine ⟨Machine.req_of_decode_op h, fun hi => ?_⟩
    rw [Machine.encode_of_decode_write (rq := ⟨q, w⟩) h hi]
  case readBack =>
    obtain ⟨rfl, hw⟩ := h
    exact decode_encode hw

/-- Settles O1. Each number is the read or the write word of its register. -/
theorem requestWordsDecode : Obligations.RequestWordsDecode := fun w =>
  ⟨⟨decode_readWord .clkcfg w, decode_writeWord .clkcfg w, decode_readWord .aCtrl w,
      decode_writeWord .aCtrl w, decode_readWord .aPeriod w, decode_writeWord .aPeriod w,
      decode_readWord .aDuty w, decode_writeWord .aDuty w, decode_readWord .aDutyact w,
      decode_readWord .aCount w⟩,
    ⟨decode_readWord .bCtrl w, decode_writeWord .bCtrl w, decode_readWord .bPeriod w,
      decode_writeWord .bPeriod w, decode_readWord .bDuty w, decode_writeWord .bDuty w,
      decode_readWord .bDutyact w, decode_readWord .bCount w⟩,
    ⟨decode_readWord .tctrl w, decode_writeWord .tctrl w, decode_readWord .treload w,
      decode_writeWord .treload w, decode_readWord .tcount w, decode_readWord .errstat w,
      decode_readWord .errdata w⟩⟩

end Sys2Proof
end

section
/-! PROOF. A cycle with RST low, in both orders at once: the transaction acts on `accessState`, and
`endCycle` follows it. The statements of the family 70_reset_and_hazards.md about a whole cycle. -/

namespace Sys2Proof.Machine

/-- The ramp step of a tick that comes before the transaction (70_reset_and_hazards.md R215). -/
def tickBefore (order : Order) (tick : Bool) : Bool :=
  match order with
  | .busFirst => false
  | .rampFirst => tick

/-- The ramp step of a tick that comes after the transaction (70_reset_and_hazards.md R215). -/
def tickAfter (order : Order) (tick : Bool) : Bool :=
  match order with
  | .busFirst => tick
  | .rampFirst => false

/-- The state that the transaction of the coming cycle acts on: after phase 2 and, with RAMP_FIRST,
after the ramp step. -/
def accessState (s : State) : State :=
  rampPhase (tickBefore (cycleInput s).order (timerTick s.timer)) (countersPhase (spendInput s))

/-- The rest of the cycle after its transaction: with BUS_FIRST the ramp step, then the output levels. -/
def endCycle (s u : State) : State :=
  driveOutputs (rampPhase (tickAfter (cycleInput s).order (timerTick s.timer)) u)

theorem onNext_onNext (f f' : State → State) (o : Result) :
    onNext f (onNext f' o) = onNext (fun s => f (f' s)) o := by
  cases o <;> rfl

/-- A step with RST low is its transaction on `accessState`, followed by `endCycle`. -/
theorem step_eq {s : State} (hrst : (cycleInput s).rst = false) :
    step s = onNext (endCycle s) (perform (cycleInput s).request (accessState s)) := by
  rw [step_run s hrst, runCycle, spendInput_timer]
  unfold accessPhase endCycle accessState
  cases (cycleInput s).order
  case busFirst => exact onNext_onNext _ _ _
  case rampFirst => rfl

/-- What a step with RST low is: one effect of the host on `accessState`, followed by `endCycle`. -/
theorem step_low {s t : State} (h : step s = .next t) (hrst : (cycleInput s).rst = false) :
    ∃ u, perform (cycleInput s).request (accessState s) = .next u ∧ Effect (accessState s) u ∧
      t = endCycle s u := by
  obtain ⟨u, hu, he⟩ := perform_effect (cycleInput s).request (accessState s)
  rw [step_eq hrst, hu, onNext_next] at h
  cases h
  exact ⟨u, hu, he, rfl⟩

/-! What phase 2 and the ramp step leave to the transaction, field by field. -/

@[simp] theorem accessState_clk (s : State) : (accessState s).clk = countClock s.clk := by
  simp [accessState]
@[simp] theorem accessState_genB (s : State) :
    (accessState s).genB = countGenerator (pwmTick s.clk) s.genB := by simp [accessState]
@[simp] theorem accessState_timer (s : State) : (accessState s).timer = countTimer s.timer := by
  simp [accessState]
@[simp] theorem accessState_err (s : State) : (accessState s).err = s.err := by simp [accessState]
@[simp] theorem accessState_out (s : State) :
    (accessState s).out = { s.out with resp := .okay, rdata := 0#32 } := by simp [accessState]
@[simp] theorem accessState_params (s : State) : (accessState s).params = s.params := by
  simp [accessState]
@[simp] theorem accessState_inputs (s : State) : (accessState s).inputs = (spendInput s).inputs := by
  simp [accessState]
@[simp] theorem accessState_drawn (s : State) : (accessState s).drawn = (spendInput s).drawn := by
  simp [accessState]

@[simp] theorem accessState_gen_en (g : GenId) (s : State) :
    (genOf g (accessState s)).en = (genOf g s).en := by
  simp [accessState, (rampPhase_gen _ _ g).1]
@[simp] theorem accessState_gen_period (g : GenId) (s : State) :
    (genOf g (accessState s)).period = (genOf g s).period := by
  simp [accessState, (rampPhase_gen _ _ g).2.2]

/-! What `endCycle` leaves of the state after the transaction. -/

@[simp] theorem endCycle_clk (s u : State) : (endCycle s u).clk = u.clk := by simp [endCycle]
@[simp] theorem endCycle_genB (s u : State) : (endCycle s u).genB = u.genB := by simp [endCycle]
@[simp] theorem endCycle_timer (s u : State) : (endCycle s u).timer = u.timer := by simp [endCycle]
@[simp] theorem endCycle_err (s u : State) : (endCycle s u).err = u.err := by simp [endCycle]
@[simp] theorem endCycle_resp (s u : State) : (endCycle s u).out.resp = u.out.resp := by
  simp [endCycle]
@[simp] theorem endCycle_rdata (s u : State) : (endCycle s u).out.rdata = u.out.rdata := by
  simp [endCycle]
@[simp] theorem endCycle_params (s u : State) : (endCycle s u).params = u.params := by
  simp [endCycle]
@[simp] theorem endCycle_inputs (s u : State) : (endCycle s u).inputs = u.inputs := by
  simp [endCycle]
@[simp] theorem endCycle_drawn (s u : State) : (endCycle s u).drawn = u.drawn := by simp [endCycle]
@[simp] theorem endCycle_gen_en (g : GenId) (s u : State) :
    (genOf g (endCycle s u)).en = (genOf g u).en := by
  simp [endCycle, (rampPhase_gen _ _ g).1]

/-- An error leaves the rest of its cycle alone (60_exceptions.md R180). -/
theorem endCycle_busError (c : ErrCode) (rq : Request) (s u : State) :
    endCycle s (busError c rq u) = { endCycle s u with
      err := errorCapture c rq u.err
      out := { (endCycle s u).out with resp := .error, rdata := 0#32 } } :=
  driveOutputs_rampPhase_busError c rq _ u

/-! The whole cycle (70_reset_and_hazards.md R215). -/

/-- Every step answers a next state. -/
theorem step_total (s : State) : ∃ t, step s = .next t := by
  cases hrst : (cycleInput s).rst
  case true => exact ⟨_, step_reset s hrst⟩
  case false =>
    obtain ⟨u, hu, -⟩ := perform_effect (cycleInput s).request (accessState s)
    exact ⟨_, by rw [step_eq hrst, hu]; rfl⟩

/-- Settles O8. A step answers in both kinds of cycle (`step_total`), and an operation by one of its
effects. -/
theorem nothingEverStops : Obligations.NothingEverStops := by
  refine ⟨step_total, fun i s => ?_⟩
  obtain ⟨t, ht, -⟩ := exec_effect i s
  exact ⟨t, ht⟩

/-! A request that decodes to an operation, and one that decodes to an error. -/

theorem perform_op_of_decode {rq : Request} {i : Instr} (h : decode rq.req rq.wdata = .op i)
    (s : State) : perform (some rq) s = exec i s := by
  simp [perform, h]

theorem perform_error_of_decode {rq : Request} {code : ErrCode}
    (h : decode rq.req rq.wdata = .error code) (s : State) :
    perform (some rq) s = .next (busError code rq s) := by
  simp [perform, h]

/-- Settles O4. The two arms are `step_eq` with the order's own ramp step; BUS_FIRST joins the ramp step
and the output levels into one function. -/
theorem stepRunsDecodedInstruction : Obligations.StepRunsDecodedInstruction := by
  intro s rq order i hin hdec
  rw [step_eq (by rw [hin]), ← perform_op_of_decode hdec, ← perform_op_of_decode hdec]
  unfold endCycle accessState
  rw [hin]
  cases order <;> rfl

/-- Without a transaction between them, the two orders of phase 3 are one. -/
theorem endCycle_accessState (s : State) : endCycle s (accessState s) =
    driveOutputs (rampPhase (timerTick s.timer) (countersPhase (spendInput s))) := by
  unfold endCycle accessState
  cases (cycleInput s).order <;> rfl

/-- A cycle with RST low and no transaction: phase 2, the ramp step of a tick and the output levels. -/
theorem cycle_idle (order : Order) (s : State) :
    cycle { rst := false, request := none, order := order } s =
      .next (driveOutputs (rampPhase (timerTick s.timer) (countersPhase s))) := by
  cases order <;> rfl

/-- A step of such a cycle. -/
theorem step_idle {s : State} (hrst : (cycleInput s).rst = false)
    (hreq : (cycleInput s).request = none) :
    step s = .next (driveOutputs (rampPhase (timerTick s.timer) (countersPhase (spendInput s)))) := by
  rw [step_eq hrst, hreq, ← endCycle_accessState]
  rfl

/-- Settles O5. The transaction is the bus error of its code, which `endCycle` leaves beside the rest of
the cycle, and that rest is the cycle without the transaction (`endCycle_accessState`). -/
theorem illegalRequestAnswersItsError : Obligations.IllegalRequestAnswersItsError := by
  intro s rq order code hin hdec
  refine ⟨endCycle s (accessState s), ?idle, ?error⟩
  case idle => rw [cycle_idle, endCycle_accessState, spendInput_timer]
  case error =>
    rw [step_eq (by rw [hin]), hin, perform_error_of_decode hdec, onNext_next, endCycle_busError,
      accessState_err]

/-- Settles O51. Without a transaction only the counters, the ramp step and the output levels act, and
none of them touches the record or the response. -/
theorem internalEventsNeverError : Obligations.InternalEventsNeverError :=
  fun _ hrst hreq => ⟨_, step_idle hrst hreq, by simp, by simp, by simp⟩

/-- Settles O57. With DIVEN = 0 there is no PWM tick and the prescaler holds, and with TCTRL.EN = 0 there
is no timer tick and the timer holds. -/
theorem idleBlockHoldsStill : Obligations.IdleBlockHoldsStill := by
  intro s hdiv hten hrst hreq
  have hpwm : pwmTick s.clk = false := by simp [pwmTick, hdiv]
  have htick : timerTick s.timer = false := by simp [timerTick, hten]
  have hclk : countClock s.clk = s.clk := by simp [countClock, hdiv]
  exact ⟨_, step_idle hrst hreq, by simp [hclk], by simp [htick, hpwm, countGenerator_no_tick],
    by simp [hpwm, countGenerator_no_tick], by simp [countTimer_stopped _ hten], by simp [htick],
    by simp⟩

/-- The model's own fields after a step are those of the spent inputs. -/
theorem step_own_fields {s t : State} (h : step s = .next t) :
    t.params = s.params ∧ t.inputs = (spendInput s).inputs ∧ t.drawn = (spendInput s).drawn := by
  cases hrst : (cycleInput s).rst
  case true =>
    rw [step_reset s hrst] at h
    cases h
    simp
  case false =>
    obtain ⟨u, -, he, rfl⟩ := step_low h hrst
    simp [he.params_eq, he.inputs_eq, he.drawn_eq]

/-- Settles O9. `step_own_fields`, by whether inputs are decided. -/
theorem stepSpendsItsInputs : Obligations.StepSpendsItsInputs := by
  intro s t h
  obtain ⟨hparams, hinputs, hdrawn⟩ := step_own_fields h
  rw [hinputs, hdrawn]
  refine ⟨hparams, fun hnone => ?drawn, fun i rest hsome => ?decided⟩
  case drawn => simp [spendInput, hnone]
  case decided => simp [spendInput, hsome]

/-- Settles O56. The host's effect keeps the clock while a generator runs and N while the timer runs
(`Effect.clk_running`, `Effect.timer_running`), and phase 2 keeps the fields it does not count. -/
theorem configurationFixedOnceRunning : Obligations.ConfigurationFixedOnceRunning := by
  intro s t hrst h
  refine ⟨fun hrun => ?clock, fun g hen => ?generator, fun hen => ?timer⟩
  case clock =>
    obtain ⟨u, -, he, rfl⟩ := step_low h hrst
    obtain ⟨g, hg⟩ : ∃ g, (genOf g s).en = true := hrun.elim (⟨.a, ·⟩) (⟨.b, ·⟩)
    have hclk := he.clk_running g (by rw [accessState_gen_en, hg])
    simp [hclk]
  case generator =>
    obtain ⟨hen', -, hper, -⟩ := step_running h hrst hen
    exact ⟨hen', hper⟩
  case timer =>
    obtain ⟨u, -, he, rfl⟩ := step_low h hrst
    obtain ⟨-, hn⟩ := he.timer_running (by rw [accessState_timer, countTimer_en, hen])
    simp [hn]

end Sys2Proof.Machine
end

section
/-! PROOF. The statements about the invariants of 10_state.md R46, R47 and of the error record. -/

namespace Sys2Proof.Machine

/-! Phase 2 keeps the invariant of the registers and counters (10_state.md R46). -/

/-- While DIVEN = 1 the prescaler counts modulo D as a number: psc + 1 never leaves the 16 bits
(40_clock_config.md R103). -/
theorem countClock_psc {c : Clock} (h : ClockInv c) (hdiv : c.diven = true) :
    (countClock c).psc.toNat = if pscAtEnd c = true then 0 else c.psc.toNat + 1 := by
  have hD := divisor_le c
  unfold ClockInv at h
  cases hend : pscAtEnd c
  case true => simp [countClock, hdiv, hend]
  case false =>
    simp only [countClock, hdiv, hend, if_true, Bool.false_eq_true, if_false]
    rw [BitVec.toNat_add, BitVec.toNat_ofNat]
    omega

theorem pscAtEnd_iff (c : Clock) : pscAtEnd c = true ↔ c.psc.toNat = divisor c - 1 := by
  simp [pscAtEnd]

theorem clockInv_countClock {c : Clock} (h : ClockInv c) : ClockInv (countClock c) := by
  unfold ClockInv
  rw [divisor_countClock]
  cases hdiv : c.diven
  case false => simpa [countClock, hdiv] using h
  case true =>
    rw [countClock_psc h hdiv]
    split
    case isTrue => exact divisor_pos c
    case isFalse hend =>
      unfold ClockInv at h
      rw [pscAtEnd_iff] at hend
      omega

/-- The count that a boundary or a start loads (41_pwm_generator.md R118, R123) as a number. -/
theorem sub_one_toNat {w : Nat} {x : BitVec w} (hx : 1 ≤ x.toNat) :
    (x - 1#w).toNat = x.toNat - 1 := by
  have hw : 1 < 2 ^ w := lt_of_le_of_lt hx x.isLt
  have h1 : (1#w).toNat = 1 := by rw [BitVec.toNat_ofNat, Nat.mod_eq_of_lt hw]
  rw [BitVec.toNat_sub_of_le (by rwa [BitVec.le_def, h1]), h1]

theorem one_le_toNat {w : Nat} {x : BitVec w} (hx : x ≠ 0#w) : 1 ≤ x.toNat := by
  rw [Nat.one_le_iff_ne_zero]
  exact fun h => hx (BitVec.eq_of_toNat_eq (by simpa using h))

theorem generatorInv_countClock {c : Clock} {g : Generator} (h : GeneratorInv c g) :
    GeneratorInv (countClock c) g := by
  unfold GeneratorInv
  rwa [countClock_diven]

theorem generatorInv_countGenerator {c : Clock} {g : Generator} (tick : Bool) (h : GeneratorInv c g) :
    GeneratorInv c (countGenerator tick g) := by
  obtain ⟨hshd, hact, hrun⟩ := h
  cases hen : g.en
  case false => rw [countGenerator_stopped _ _ hen]; exact ⟨hshd, hact, hrun⟩
  obtain ⟨hper, hcnt, hdiv⟩ := hrun hen
  cases tick
  case false => rw [countGenerator_no_tick]; exact ⟨hshd, hact, hrun⟩
  by_cases h0 : g.cnt = 0#16
  · rw [countGenerator_boundary hen h0]
    exact ⟨hshd, hshd, fun _ => ⟨hper, (sub_one_toNat hper).le, hdiv⟩⟩
  · rw [countGenerator_counts hen h0]
    refine ⟨hshd, hact, fun _ => ⟨hper, ?_, hdiv⟩⟩
    have hsub := sub_one_toNat (one_le_toNat h0)
    dsimp only
    omega

/-- The count of a running timer as a number (42_timer_ramp.md R145). -/
theorem countTimer_tcnt {x : Timer} (hen : x.en = true) (hn : 1 ≤ x.n.toNat) :
    (countTimer x).tcnt.toNat = if x.tcnt = 0#24 then x.n.toNat - 1 else x.tcnt.toNat - 1 := by
  rw [countTimer_running hen]
  dsimp only
  split
  case isTrue => exact sub_one_toNat hn
  case isFalse h0 => exact sub_one_toNat (one_le_toNat h0)

theorem timerInv_countTimer {a a' : Generator} {x : Timer} (hen : a'.en = a.en) (h : TimerInv a x) :
    TimerInv a' (countTimer x) := by
  intro hrun
  rw [countTimer_en] at hrun
  obtain ⟨ha, hn, htcnt⟩ := h hrun
  rw [countTimer_n, countTimer_tcnt hrun hn]
  refine ⟨hen.trans ha, hn, ?_⟩
  split <;> omega

theorem blockInv_countersPhase {s : State} (h : BlockInv s) : BlockInv (countersPhase s) := by
  obtain ⟨hclk, ha, hb, htimer⟩ := h
  exact ⟨clockInv_countClock hclk, generatorInv_countClock (generatorInv_countGenerator _ ha),
    generatorInv_countClock (generatorInv_countGenerator _ hb),
    timerInv_countTimer (countGenerator_en _ _) htimer⟩

/-! The ramp step and the host keep it. -/

theorem generatorInv_dutyWrite {c : Clock} {g : Generator} (v : Word) (h : GeneratorInv c g) :
    GeneratorInv c (dutyWrite v g) := by
  obtain ⟨-, hact, hrun⟩ := h
  refine ⟨clampDuty_le v g.period, ?_, hrun⟩
  cases hen : g.en
  case false => rw [dutyWrite_act_stopped v g hen]; exact clampDuty_le v g.period
  case true => rw [dutyWrite_act_running v g hen]; exact hact

theorem generatorInv_stopped {c c' : Clock} {g : Generator} (hen : g.en = false)
    (h : GeneratorInv c g) : GeneratorInv c' g := ⟨h.1, h.2.1, by simp [hen]⟩

theorem BlockInv.generatorInv {s : State} (h : BlockInv s) (g : GenId) :
    GeneratorInv s.clk (genOf g s) := by
  obtain ⟨-, ha, hb, -⟩ := h
  cases g
  exacts [ha, hb]

/-- Replacing a generator by one that meets its invariant and still runs if the old one did. -/
theorem blockInv_setGen {g : GenId} {x : Generator} {s : State} (h : BlockInv s)
    (hx : GeneratorInv s.clk x) (hen : (genOf g s).en = true → x.en = true) :
    BlockInv (setGen g x s) := by
  obtain ⟨hclk, ha, hb, htimer⟩ := h
  cases g
  case a =>
    refine ⟨hclk, hx, hb, fun hrun => ?_⟩
    obtain ⟨hrunA, hcount⟩ := htimer hrun
    exact ⟨hen hrunA, hcount⟩
  case b => exact ⟨hclk, ha, hx, htimer⟩

theorem blockInv_rampPhase {tick : Bool} {s : State} (h : BlockInv s) :
    BlockInv (rampPhase tick s) := by
  cases tick
  case false => exact h
  case true =>
    refine blockInv_setGen (g := .a) (x := (rampStep s).genA) h ?_ (by simp [apply_ite])
    rw [rampStep_genA]
    split
    · exact generatorInv_dutyWrite _ (h.generatorInv .a)
    · exact h.generatorInv .a

theorem Effect.blockInv {s u : State} (he : Effect s u) (h : BlockInv s) : BlockInv u := by
  have ⟨hclk, ha, hb, htimer⟩ := h
  cases he with
  | idle | answered | errored => exact h
  | clkcfg en dl hea heb =>
    exact ⟨divisor_pos _, generatorInv_stopped hea ha, generatorInv_stopped heb hb, htimer⟩
  | start g hen hdiv hper =>
    obtain ⟨hshd, -, -⟩ := h.generatorInv g
    have hpos := one_le_toNat hper
    exact blockInv_setGen h ⟨hshd, hshd, fun _ => ⟨hpos, (sub_one_toNat hpos).le, hdiv⟩⟩ fun _ => rfl
  | period g p hen hp =>
    have hle : (if (genOf g s).shd ≤ p then (genOf g s).shd else p).toNat ≤ p.toNat := by
      split
      case isTrue hle => exact BitVec.le_def.mp hle
      case isFalse => exact le_rfl
    exact blockInv_setGen h ⟨hle, hle, by simp [hen]⟩ id
  | duty g v hper => exact blockInv_setGen h (generatorInv_dutyWrite v (h.generatorInv g)) id
  | timerStart hen hrun hn =>
    have hpos := one_le_toNat hn
    exact ⟨hclk, ha, hb, fun _ => ⟨hrun, hpos, (sub_one_toNat hpos).le⟩⟩
  | timerStop hen => exact ⟨hclk, ha, hb, fun hrun => Bool.noConfusion hrun⟩
  | reload n hen hn => exact ⟨hclk, ha, hb, fun hrun => by simp [hen] at hrun⟩

/-! The reset state (10_state.md R44). -/

theorem blockInv_reset : BlockInv State.reset := by decide

theorem rampInv_reset (cmp : WrapCmp) : RampInv cmp Ramp.reset := by cases cmp <;> decide

theorem errorInv_reset : ErrorInv ErrorStatus.reset := by decide

/-- Settles O55. Each component of the reset state meets its part by computation. -/
theorem resetMeetsInvariants : Obligations.ResetMeetsInvariants :=
  ⟨blockInv_reset, rampInv_reset _, errorInv_reset⟩

/-! The whole step. -/

theorem blockInv_spendInput {s : State} (h : BlockInv s) : BlockInv (spendInput s) := by
  unfold spendInput
  split <;> exact h

theorem blockInv_accessState {s : State} (h : BlockInv s) : BlockInv (accessState s) :=
  blockInv_rampPhase (blockInv_countersPhase (blockInv_spendInput h))

/-- Settles O52. A reset leads to the reset state; any other cycle is phase 2, one effect of the host and
the ramp step before or after it, and each keeps the invariant. -/
theorem stepKeepsBlockInvariant : Obligations.StepKeepsBlockInvariant := by
  intro s t hinv h
  cases hrst : (cycleInput s).rst
  case true =>
    rw [step_reset s hrst] at h
    cases h
    exact blockInv_reset
  case false =>
    obtain ⟨u, -, he, rfl⟩ := step_low h hrst
    exact blockInv_rampPhase (he.blockInv (blockInv_accessState hinv))

/-- The least sum that the wrap comparison takes to 0 (42_timer_ramp.md R152). -/
def rampLimit : WrapCmp → Nat
  | .ge => 56250
  | .gt => 56251

/-- A step of the UP branch, for a duty whose sum does not leave the 32 bits. -/
theorem rampAdvance_up_duty {cmp : WrapCmp} {r : Ramp} (hstep : (r.elapsedMs.toNat + 1) % 2 ^ 32 % 5 = 0)
    (hup : r.direction = .up) (hsmall : r.duty.toNat + 50 < 2 ^ 32) :
    (rampAdvance cmp r).duty.toNat =
      if rampLimit cmp ≤ r.duty.toNat + 50 then 0 else r.duty.toNat + 50 := by
  obtain ⟨-, hduty⟩ := rampUpBranch cmp r hstep hup
  rw [hduty, Nat.mod_eq_of_lt hsmall]
  cases cmp <;> simp [rampLimit, Nat.lt_iff_add_one_le]

/-- The ramp engine keeps its invariant: a step of the UP branch leaves a multiple of 50 below the wrap,
or 0 (10_state.md R47). -/
theorem rampInv_rampAdvance {cmp : WrapCmp} {r : Ramp} (h : RampInv cmp r) :
    RampInv cmp (rampAdvance cmp r) := by
  obtain ⟨hmult, hle, hup⟩ := h
  unfold RampInv
  by_cases hstep : (r.elapsedMs.toNat + 1) % 2 ^ 32 % 5 = 0
  case neg =>
    obtain ⟨hduty, hdir⟩ := (elapsedCountsTicks cmp r).2 hstep
    rw [hduty, hdir]
    exact ⟨hmult, hle, hup⟩
  case pos =>
    obtain ⟨hdir, -⟩ := rampUpBranch cmp r hstep hup
    have hsmall : r.duty.toNat ≤ 56250 := hle.trans (by cases cmp <;> decide)
    rw [rampAdvance_up_duty hstep hup (by omega), hdir]
    by_cases hwrap : rampLimit cmp ≤ r.duty.toNat + 50
    case pos =>
      rw [if_pos hwrap]
      exact ⟨rfl, Nat.zero_le _, rfl⟩
    case neg =>
      rw [if_neg hwrap]
      refine ⟨by omega, ?_, rfl⟩
      cases cmp <;> simp only [rampLimit] at hwrap ⊢ <;> omega

/-- Settles O53. A reset sets the ramp's reset value; any other cycle advances the ramp or leaves it
(`step_ramp`). -/
theorem stepKeepsRampInvariant : Obligations.StepKeepsRampInvariant := by
  intro s t hinv h
  rw [(step_own_fields h).1]
  cases hrst : (cycleInput s).rst
  case true =>
    rw [step_reset s hrst] at h
    cases h
    exact rampInv_reset _
  case false =>
    rw [step_ramp h hrst]
    split
    · exact rampInv_rampAdvance hinv
    · exact hinv

/-! The error record in a cycle with RST low. -/

/-- The record stays with an OKAY response, and takes one capture with an ERROR. -/
theorem step_error_record {s t : State} (h : step s = .next t) (hrst : (cycleInput s).rst = false) :
    (t.out.resp = .okay ∧ t.err = s.err) ∨
      (t.out.resp = .error ∧ ∃ code rq, t.err = errorCapture code rq s.err) := by
  obtain ⟨u, -, he, rfl⟩ := step_low h hrst
  simpa using he.error_record (by simp)

theorem errorInv_errorCapture {e : ErrorStatus} (code : ErrCode) (rq : Request) (h : ErrorInv e) :
    ErrorInv (errorCapture code rq e) := by
  obtain ⟨hcode, -, -, hdata⟩ := h
  have hcount : 1 ≤ (errorCapture code rq e).count.toNat := by rw [errorCapture_count]; omega
  by_cases hempty : e.code = 0#4
  case pos =>
    obtain ⟨hcode', hreq', hdata'⟩ := errorCapture_first code rq hempty
    unfold ErrorInv
    rw [hcode', hreq', hdata']
    exact ⟨errCodeNum_le code, fun h0 => absurd h0 (errCodeNum_ne_zero code), fun _ => hcount,
      fun hread => by simp [hread]⟩
  case neg =>
    obtain ⟨hcode', hreq', hdata'⟩ := errorCapture_later code rq hempty
    unfold ErrorInv
    rw [hcode', hreq', hdata']
    exact ⟨hcode, fun h0 => absurd h0 hempty, fun _ => hcount, hdata⟩

/-- Settles O54. A reset empties the record; any other cycle leaves it or captures one error
(`step_error_record`). -/
theorem stepKeepsErrorRecordShape : Obligations.StepKeepsErrorRecordShape := by
  intro s t hinv h
  cases hrst : (cycleInput s).rst
  case true =>
    rw [step_reset s hrst] at h
    cases h
    exact errorInv_reset
  case false =>
    obtain ⟨-, herr⟩ | ⟨-, code, rq, herr⟩ := step_error_record h hrst <;> rw [herr]
    · exact hinv
    · exact errorInv_errorCapture code rq hinv

theorem errorCapture_code_ne_zero (code : ErrCode) (rq : Request) (e : ErrorStatus) :
    (errorCapture code rq e).code ≠ 0#4 := by
  rw [errorCapture_code]
  split
  · exact errCodeNum_ne_zero code
  · assumption

/-- Settles O50. By `step_error_record` the record is the old one or one capture beside it, and a capture
on a recorded error only counts (`errorCapture_later`, `errorCapture_count`). -/
theorem firstErrorIsKept : Obligations.FirstErrorIsKept := by
  intro s t hrst h
  obtain ⟨hresp, herr⟩ | ⟨hresp, code, rq, herr⟩ := step_error_record h hrst <;> rw [herr, hresp]
  · exact ⟨fun _ => ⟨rfl, rfl, rfl⟩, (nomatch ·), fun _ => rfl⟩
  · exact ⟨errorCapture_later code rq, fun _ => ⟨errorCapture_code_ne_zero code rq s.err,
      errorCapture_count code rq s.err⟩, (nomatch ·)⟩

end Sys2Proof.Machine
end

section
/-! PROOF. The statements of the family 42_timer_ramp.md about the ramp over many ticks. -/

namespace Sys2Proof.Machine

/-- Settles O21. The ramp after a cycle (`step_ramp`), by the two outcomes of the tick's test. -/
theorem rampAdvancesOnTicksOnly : Obligations.RampAdvancesOnTicksOnly := by
  intro s t hrst h
  rw [step_ramp h hrst]
  refine ⟨fun hen htcnt => if_pos ((timerTick_iff _).mpr ⟨hen, htcnt⟩), fun hno => if_neg ?_⟩
  rwa [timerTick_iff, not_and_or, Bool.not_eq_true]

/-- How many steps bring the ramp from 0 back to 0 (42_timer_ramp.md R156). -/
def rampPeriod : WrapCmp → Nat
  | .ge => 1125
  | .gt => 1126

theorem rampPeriod_pos (cmp : WrapCmp) : 0 < rampPeriod cmp := by cases cmp <;> decide

theorem rampDuty_lt (cmp : WrapCmp) (q : Nat) : 50 * (q % rampPeriod cmp) + 50 < 2 ^ 32 := by
  have hlt := Nat.mod_lt q (rampPeriod_pos cmp)
  have hle : rampPeriod cmp ≤ 1126 := by cases cmp <;> decide
  omega

/-- The number of steps made, modulo the ramp's period: the next step is the last one of the period
exactly when its sum is wrapped. -/
theorem rampDuty_next (cmp : WrapCmp) (q : Nat) :
    (if rampLimit cmp ≤ 50 * (q % rampPeriod cmp) + 50 then 0 else 50 * (q % rampPeriod cmp) + 50) =
      50 * ((q + 1) % rampPeriod cmp) := by
  by_cases hwrap : rampLimit cmp ≤ 50 * (q % rampPeriod cmp) + 50
  case pos =>
    rw [if_pos hwrap]
    cases cmp <;> simp only [rampLimit, rampPeriod] at hwrap ⊢ <;> omega
  case neg =>
    rw [if_neg hwrap]
    cases cmp <;> simp only [rampLimit, rampPeriod] at hwrap ⊢ <;> omega

/-- Off a step the number of steps made stays and on a step the ramp rises by 50, back to 0 after
`rampPeriod` steps: one tick of the timeline of 42_timer_ramp.md R156. -/
theorem rampAdvance_timeline {cmp : WrapCmp} {r : Ramp} {k : Nat} (hk : k + 1 < 2 ^ 32)
    (hms : r.elapsedMs.toNat = k) (hup : r.direction = .up)
    (hduty : r.duty.toNat = 50 * (k / 5 % rampPeriod cmp)) :
    (rampAdvance cmp r).elapsedMs.toNat = k + 1 ∧ (rampAdvance cmp r).direction = .up ∧
      (rampAdvance cmp r).duty.toNat = 50 * ((k + 1) / 5 % rampPeriod cmp) := by
  obtain ⟨hms', hno⟩ := elapsedCountsTicks cmp r
  rw [hms, Nat.mod_eq_of_lt hk] at hms' hno
  refine ⟨hms', ?_⟩
  by_cases hstep : (k + 1) % 5 = 0
  case neg =>
    obtain ⟨hduty', hdir'⟩ := hno hstep
    rw [hduty', hdir', hduty, Nat.succ_div_of_not_dvd (mt Nat.mod_eq_zero_of_dvd hstep)]
    exact ⟨hup, rfl⟩
  case pos =>
    have hstep' : (r.elapsedMs.toNat + 1) % 2 ^ 32 % 5 = 0 := by
      rw [hms, Nat.mod_eq_of_lt hk, hstep]
    obtain ⟨hdir', -⟩ := rampUpBranch cmp r hstep' hup
    refine ⟨hdir', ?_⟩
    rw [rampAdvance_up_duty hstep' hup (by rw [hduty]; exact rampDuty_lt cmp _), hduty,
      rampDuty_next, Nat.succ_div_of_dvd (Nat.dvd_of_mod_eq_zero hstep)]

/-- The timeline, by induction on the number of ticks. -/
theorem ramp_timeline (cmp : WrapCmp) (k : Nat) (hk : k < 2 ^ 32) :
    ((rampAdvance cmp)^[k] Ramp.reset).elapsedMs.toNat = k ∧
      ((rampAdvance cmp)^[k] Ramp.reset).direction = .up ∧
      ((rampAdvance cmp)^[k] Ramp.reset).duty.toNat = 50 * (k / 5 % rampPeriod cmp) := by
  induction k with
  | zero => simp [Ramp.reset]
  | succ k ih =>
    obtain ⟨hms, hup, hduty⟩ := ih (by omega)
    rw [Function.iterate_succ_apply']
    exact rampAdvance_timeline hk hms hup hduty

/-- Settles O26. `ramp_timeline`, with the period of each comparison. -/
theorem rampTimelineFromReset : Obligations.RampTimelineFromReset := by
  intro cmp k hk
  obtain ⟨hms, hup, hduty⟩ := ramp_timeline cmp k hk
  refine ⟨hms, hup, hduty.trans ?_⟩
  cases cmp <;> rfl

/-- Settles O27. Both 4294967295 and 0 are multiples of 5, so both ticks are steps, and the first leaves
the direction UP. -/
theorem elapsedWrapStepsTwice : Obligations.ElapsedWrapStepsTwice := by
  intro cmp d r0 r1 r2
  have h1 : r1 = rampUp cmp { r0 with elapsedMs := 4294967295#32 } :=
    rampAdvance_up cmp (show rampSteps 4294967295#32 = true by decide) rfl
  have hms1 : r1.elapsedMs = 4294967295#32 := by rw [h1]; rfl
  have hup1 : r1.direction = .up := by rw [h1]; rfl
  have h2 : r2 = rampUp cmp { r1 with elapsedMs := 0#32 } := by
    have hstep := rampAdvance_up cmp (r := r1) (by rw [hms1]; decide) hup1
    rwa [hms1] at hstep
  exact ⟨hms1, h1, by rw [h2]; rfl, h2⟩

end Sys2Proof.Machine
end

section
/-! PROOF. What a request can be, by the register it names, and the part of the state that the rule of
each write reaches. -/

namespace Sys2Proof.Machine

/-- The rule of a write of a register; the write of an RO register is E_READONLY (30_encoding.md R88). -/
def writeRule : Reg → Word → State → Except ErrCode State
  | .clkcfg => writeClkcfg
  | .aCtrl => writeCtrl .a
  | .aPeriod => writePeriod .a
  | .aDuty => writeDuty .a
  | .bCtrl => writeCtrl .b
  | .bPeriod => writePeriod .b
  | .bDuty => writeDuty .b
  | .tctrl => writeTctrl
  | .treload => writeTreload
  | .aDutyact | .aCount | .bDutyact | .bCount | .tcount | .errstat | .errdata =>
    fun _ _ => .error .readOnly

theorem perform_read (r : Reg) (w : Word) (s : State) :
    perform (some ⟨readWord r, w⟩) s = performRead r s := by
  simp [perform, decode_readWord, exec_readOp]

theorem perform_write (r : Reg) (w : Word) (s : State) :
    perform (some ⟨writeWord r, w⟩) s = performWrite r w (writeRule r) s := by
  simp only [perform, decode_writeWord]
  cases r <;> rfl

/-- A request word that decodes to an operation is the read word or the write word of a register. -/
theorem word_of_decode_op {q : ReqWord} {w : Word} {i : Instr} (h : decode q w = .op i) :
    ∃ r, q = readWord r ∨ q = writeWord r := by
  obtain ⟨-, hsize, hx, -, -, -, r, hr, -⟩ := encode_form i
  have hq := req_eq_word _ r hsize hx ((regAt_eq_some _ r).mp hr)
  rw [← req_of_decode_op h] at hq
  refine ⟨r, ?_⟩
  cases hwe : reqWe q
  case false => exact .inl (by simpa [hwe] using hq)
  case true => exact .inr (by simpa [hwe] using hq)

/-- A cycle's request is none, the read or the write of a register, or an error of the decode. -/
theorem request_cases (req : Option Request) :
    req = none ∨ (∃ r w, req = some ⟨readWord r, w⟩) ∨ (∃ r w, req = some ⟨writeWord r, w⟩) ∨
      ∃ rq code, req = some rq ∧ decode rq.req rq.wdata = .error code := by
  rcases req with _ | ⟨q, w⟩
  · exact .inl rfl
  · cases hd : decode q w with
    | error code => exact .inr (.inr (.inr ⟨_, code, rfl, hd⟩))
    | op i =>
      obtain ⟨r, rfl | rfl⟩ := word_of_decode_op hd
      · exact .inr (.inl ⟨r, w, rfl⟩)
      · exact .inr (.inr (.inl ⟨r, w, rfl⟩))

/-- A part of the state that neither a response nor a bus error touches is left alone by the host unless
an accepted write changes it. -/
theorem perform_frame {α : Type} {part : State → α} {req : Option Request} {s u : State}
    (hokay : ∀ v t, part (respondOkay v t) = part t)
    (herror : ∀ code rq t, part (busError code rq t) = part t)
    (hwrite : ∀ r w t, req = some ⟨writeWord r, w⟩ → writeRule r w s = .ok t → part t = part s)
    (h : perform req s = .next u) : part u = part s := by
  obtain rfl | ⟨r, w, rfl⟩ | ⟨r, w, rfl⟩ | ⟨rq, code, rfl, hd⟩ := request_cases req
  · cases h; rfl
  · rw [perform_read] at h
    cases h
    exact hokay _ s
  · rw [perform_write] at h
    obtain ⟨t, ht, rfl⟩ | ⟨code, -, rfl⟩ := performWrite_next h
    · rw [hokay, hwrite r w t rfl ht]
    · exact herror code _ s
  · rw [perform_error_of_decode hd] at h
    cases h
    exact herror code rq s

/-! What each write rule reaches. -/

@[simp] theorem setGen_genOf (g : GenId) (s : State) : setGen g (genOf g s) s = s := by
  cases g <;> rfl

theorem writeClkcfg_reach {w : Word} {s t : State} (h : writeClkcfg w s = .ok t) :
    ∃ c, t = { s with clk := c } := by
  obtain rfl | ⟨-, -, rfl⟩ := writeClkcfg_ok h
  exacts [⟨t.clk, rfl⟩, ⟨_, rfl⟩]

theorem writeCtrl_reach {g : GenId} {w : Word} {s t : State} (h : writeCtrl g w s = .ok t) :
    ∃ x, t = setGen g x s ∧ x.period = (genOf g s).period ∧ x.shd = (genOf g s).shd := by
  obtain rfl | ⟨-, -, -, rfl⟩ := writeCtrl_ok h
  exacts [⟨_, (setGen_genOf g t).symm, rfl, rfl⟩, ⟨_, rfl, rfl, rfl⟩]

theorem writePeriod_reach {g : GenId} {w : Word} {s t : State} (h : writePeriod g w s = .ok t) :
    ∃ x, t = setGen g x s ∧ x.en = (genOf g s).en ∧ x.cnt = (genOf g s).cnt := by
  obtain rfl | ⟨-, -, rfl⟩ := writePeriod_ok h
  exacts [⟨_, (setGen_genOf g t).symm, rfl, rfl⟩, ⟨_, rfl, rfl, rfl⟩]

theorem writeTctrl_reach {w : Word} {s t : State} (h : writeTctrl w s = .ok t) :
    ∃ x, t = { s with timer := x } ∧ x.n = s.timer.n := by
  obtain rfl | ⟨-, -, -, rfl⟩ | ⟨-, rfl⟩ := writeTctrl_ok h
  exacts [⟨t.timer, rfl, rfl⟩, ⟨_, rfl, rfl⟩, ⟨_, rfl, rfl⟩]

theorem writeTreload_reach {w : Word} {s t : State} (h : writeTreload w s = .ok t) :
    ∃ x, t = { s with timer := x } ∧ x.en = s.timer.en ∧ x.tcnt = s.timer.tcnt := by
  obtain rfl | ⟨-, -, rfl⟩ := writeTreload_ok h
  exacts [⟨t.timer, rfl, rfl, rfl⟩, ⟨_, rfl, rfl, rfl⟩]

/-- Only the write of CLKCFG reaches the clock. -/
theorem writeRule_clk {r : Reg} {w : Word} {s t : State} (hr : r ≠ .clkcfg)
    (h : writeRule r w s = .ok t) : t.clk = s.clk := by
  cases r
  case clkcfg => exact absurd rfl hr
  case aCtrl | bCtrl => obtain ⟨x, rfl, -⟩ := writeCtrl_reach h; simp
  case aPeriod | bPeriod => obtain ⟨x, rfl, -⟩ := writePeriod_reach h; simp
  case aDuty | bDuty => obtain ⟨-, rfl⟩ := writeDuty_ok h; simp
  case tctrl => obtain ⟨x, rfl, -⟩ := writeTctrl_reach h; rfl
  case treload => obtain ⟨x, rfl, -⟩ := writeTreload_reach h; rfl
  all_goals cases h

/-- A generator's shadow is reached only by the writes of its DUTY and PERIOD. -/
theorem writeRule_shd {g : GenId} {r : Reg} {w : Word} {s t : State} (hduty : r ≠ dutyReg g)
    (hperiod : r ≠ periodReg g) (h : writeRule r w s = .ok t) :
    (genOf g t).shd = (genOf g s).shd := by
  have hctrl {g' : GenId} (h : writeCtrl g' w s = .ok t) : (genOf g t).shd = (genOf g s).shd := by
    obtain ⟨x, rfl, -, hshd⟩ := writeCtrl_reach h
    by_cases hg : g = g'
    · subst hg; rw [genOf_setGen_same, hshd]
    · rw [genOf_setGen_other hg]
  cases r
  case clkcfg => rw [writeClkcfg_genOf h]
  case aCtrl | bCtrl => exact hctrl h
  case aPeriod | bPeriod =>
    rw [writePeriod_genOf_other (fun hg => hperiod (by rw [hg]; rfl)) h]
  case aDuty | bDuty =>
    rw [writeDuty_genOf_other (fun hg => hduty (by rw [hg]; rfl)) h]
  case tctrl => rw [writeTctrl_genOf h]
  case treload => rw [writeTreload_genOf h]
  all_goals cases h

/-- A running timer is reached only by the write of TCTRL. -/
theorem writeRule_timer {r : Reg} {w : Word} {s t : State} (hr : r ≠ .tctrl)
    (hen : s.timer.en = true) (h : writeRule r w s = .ok t) : t.timer = s.timer := by
  cases r
  case clkcfg => obtain ⟨c, rfl⟩ := writeClkcfg_reach h; rfl
  case aCtrl | bCtrl => obtain ⟨x, rfl, -⟩ := writeCtrl_reach h; simp
  case aPeriod | bPeriod => obtain ⟨x, rfl, -⟩ := writePeriod_reach h; simp
  case aDuty | bDuty => obtain ⟨-, rfl⟩ := writeDuty_ok h; simp
  case tctrl => exact absurd rfl hr
  case treload =>
    obtain rfl | ⟨hstop, -⟩ := writeTreload_ok h
    · rfl
    · simp [hen] at hstop
  all_goals cases h

/-! The statements about one cycle that follow. -/

/-- The prescaler's count on D as a number (40_clock_config.md R103). -/
theorem countClock_eq (c : Clock) : countClock c =
    { diven := c.diven
      divlog2 := c.divlog2
      psc := if c.diven = true then
          (if c.psc.toNat = 2 ^ c.divlog2.toNat - 1 then 0#16 else c.psc + 1#16)
        else c.psc } := by
  obtain ⟨diven, divlog2, psc⟩ := c
  cases diven <;> simp [countClock, pscAtEnd, divisor]

/-- Settles O10. Phase 2 is the count of R103, and only a write of CLKCFG reaches the clock after it. -/
theorem prescalerCountsModuloD : Obligations.PrescalerCountsModuloD := by
  intro s t hrst hreq h
  obtain ⟨u, hu, -, rfl⟩ := step_low h hrst
  have hclk : u.clk = (accessState s).clk := by
    refine perform_frame (part := State.clk) (fun _ _ => rfl) (fun _ _ _ => rfl) ?_ hu
    intro r w t hr ht
    refine writeRule_clk ?_ ht
    rintro rfl
    exact hreq _ hr rfl
  rw [endCycle_clk, hclk, accessState_clk, countClock_eq]

theorem tickBefore_false (order : Order) : tickBefore order false = false := by cases order <;> rfl

theorem tickAfter_false (order : Order) : tickAfter order false = false := by cases order <;> rfl

/-- B, and A without a timer tick, meet the transaction as phase 2 left them. -/
theorem genOf_accessState {g : GenId} {s : State} (h : g = .a → timerTick s.timer = false) :
    genOf g (accessState s) = countGenerator (pwmTick s.clk) (genOf g s) := by
  unfold accessState
  rw [rampPhase_genOf fun ha => by rw [h ha, tickBefore_false]]
  simp

/-- B, and A without a timer tick, end the cycle as the transaction left them. -/
theorem genOf_endCycle {g : GenId} {s u : State} (h : g = .a → timerTick s.timer = false) :
    genOf g (endCycle s u) = genOf g u := by
  unfold endCycle
  rw [genOf_driveOutputs, rampPhase_genOf fun ha => by rw [h ha, tickAfter_false]]

/-- Settles O19. Phase 2 keeps the shadow, the ramp step does not come, and the transaction is no write
that reaches it (`writeRule_shd`). -/
theorem shadowChangesOnlyByDutyWrites : Obligations.ShadowChangesOnlyByDutyWrites := by
  intro g s t hrst h hreq hno
  have htick : g = .a → timerTick s.timer = false := fun ha => by
    rw [← Bool.not_eq_true, timerTick_iff, not_and_or, Bool.not_eq_true]
    exact hno ha
  obtain ⟨u, hu, -, rfl⟩ := step_low h hrst
  have hshd : (genOf g u).shd = (genOf g (accessState s)).shd := by
    refine perform_frame (part := fun x => (genOf g x).shd) (by simp) (by simp) ?_ hu
    intro r w t hr ht
    obtain ⟨hduty, hperiod⟩ := hreq _ hr
    exact writeRule_shd (fun hd => hduty (by rw [hd])) (fun hp => hperiod (by rw [hp])) ht
  rw [genOf_endCycle htick, hshd, genOf_accessState htick, countGenerator_shd]

/-- The ramp step on a running A changes no register but A.SHD (42_timer_ramp.md R154). -/
theorem regRead_rampPhase {tick : Bool} {r : Reg} {s : State} (hrun : tick = true → s.genA.en = true)
    (hr : r ≠ .aDuty) : regRead r (rampPhase tick s) = regRead r s := by
  cases tick
  case false => rfl
  obtain ⟨hen, hcnt, hper, hact⟩ := rampPhase_running true s .a (hrun rfl)
  cases r
  case aDuty => exact absurd rfl hr
  case aCtrl => simp only [regRead, hen]; rw [genOf_a, hrun rfl]
  case aPeriod => simp only [regRead, hper]
  case aDutyact => simp only [regRead, hact]
  case aCount => simp only [regRead, hcnt]
  all_goals rfl

/-- In a state of 10_state.md R46 a timer tick finds A running. -/
theorem BlockInv.running_of_tick {s : State} (h : BlockInv s) (htick : timerTick s.timer = true) :
    s.genA.en = true := by
  obtain ⟨-, -, -, htimer⟩ := h
  exact (htimer ((timerTick_iff _).mp htick).1).1

theorem tick_of_tickBefore {order : Order} {tick : Bool} (h : tickBefore order tick = true) :
    tick = true := by
  cases order
  case busFirst => cases h
  case rampFirst => exact h

/-- Settles O37. The read acts on the state after phase 2, where a ramp step before it has changed no
register but A_DUTY (`regRead_rampPhase`). -/
theorem readSeesThisCyclesCounters : Obligations.ReadSeesThisCyclesCounters := by
  intro s r w order hinv hr
  rw [step_eq (by rfl), cycleInput_decideInput, perform_read]
  refine ⟨_, rfl, by simp, ?_⟩
  rw [endCycle_rdata, respondOkay_out]
  refine regRead_rampPhase (fun htick => ?_) hr
  simpa using hinv.running_of_tick (tick_of_tickBefore htick)

end Sys2Proof.Machine
end

section
/-! PROOF. The statements about single operations: the duties and counts of the generators, and WR.TCTRL. -/

namespace Sys2Proof.Machine

/-- Settles O34. Each operation is the read of its register. -/
theorem readGeneratorDutyAndCount : Obligations.ReadGeneratorDutyAndCount := by
  refine ⟨fun w => ⟨decode_readWord .aDuty w, decode_readWord .bDuty w, decode_readWord .aDutyact w,
    decode_readWord .bDutyact w, decode_readWord .aCount w, decode_readWord .bCount w⟩, fun s => ?_⟩
  simp only [BitVec.ofNat_toNat]
  exact ⟨exec_readOp .aDuty s, exec_readOp .bDuty s, exec_readOp .aDutyact s, exec_readOp .bDutyact s,
    exec_readOp .aCount s, exec_readOp .bCount s⟩

/-! The four outcomes of the write rule of TCTRL (42_timer_ramp.md R141). -/

theorem writeTctrl_start {w : Word} {s : State} (hen : s.timer.en = false) (hw : enField w = true)
    (ha : s.genA.en = true) (hn : s.timer.n ≠ 0#24) :
    writeTctrl w s = .ok { s with
      timer := { s.timer with en := true, tcnt := s.timer.n - 1#24 } } := by
  simp [writeTctrl, hen, hw, ha, hn]

theorem writeTctrl_stop {w : Word} {s : State} (hen : s.timer.en = true) (hw : enField w = false) :
    writeTctrl w s = .ok { s with timer := { s.timer with en := false } } := by
  simp [writeTctrl, hen, hw]

theorem writeTctrl_current {w : Word} {s : State} (hw : enField w = s.timer.en) :
    writeTctrl w s = .ok s := by
  cases hen : s.timer.en <;> simp [writeTctrl, hw, hen]

theorem writeTctrl_state {w : Word} {s : State} (hen : s.timer.en = false) (hw : enField w = true)
    (hpre : s.genA.en = false ∨ s.timer.n = 0#24) : writeTctrl w s = .error .state := by
  simp [writeTctrl, hen, hw, hpre]

theorem reload_sub_one_eq_ofNat {n : Count24} (hn : n ≠ 0#24) :
    n - 1#24 = BitVec.ofNat 24 (n.toNat - 1) := by
  rw [← sub_one_toNat (one_le_toNat hn), BitVec.ofNat_toNat, BitVec.setWidth_eq]

/-- Settles O42. Each clause is one outcome of the write rule. -/
theorem writeTimerControl : Obligations.WriteTimerControl := by
  refine ⟨decode_writeWord .tctrl, fun w s => ?_⟩
  rw [exec_wrTctrl]
  refine ⟨fun hen hw ha hn => ?start, fun hen hw => ?stop, fun hw => ?current,
    fun hen hw hpre => ?state⟩
  case start =>
    rw [← reload_sub_one_eq_ofNat hn]
    exact performWrite_of_ok (writeTctrl_start hen hw ha hn)
  case stop => exact performWrite_of_ok (writeTctrl_stop hen hw)
  case current => exact performWrite_of_ok (writeTctrl_current hw)
  case state => exact performWrite_of_error (writeTctrl_state hen hw hpre)

end Sys2Proof.Machine
end

section
/-! PROOF. The statements about a timer tick and a host transaction in one cycle
(70_reset_and_hazards.md R216). -/

namespace Sys2Proof.Machine

/-- Whether the ramp engine writes generator A on the tick of this state (42_timer_ramp.md R154). -/
def engineWrites (s : State) : Bool :=
  rampWrites s.params.writePolicy (rampSteps (rampAdvance s.params.wrapCmp s.ramp).elapsedMs)

theorem engineWrites_iff (s : State) : engineWrites s = true ↔
    s.params.writePolicy = .everyTick ∨ (s.ramp.elapsedMs.toNat + 1) % 2 ^ 32 % 5 = 0 := by
  unfold engineWrites
  rw [rampAdvance_elapsed, ← rampSteps_increment_iff]
  cases s.params.writePolicy <;> simp [rampWrites]

/-- The ramp step on a tick on which the engine does not write. -/
theorem rampStep_holds {s : State} (h : engineWrites s = false) :
    rampStep s = { s with ramp := rampAdvance s.params.wrapCmp s.ramp } := by
  unfold engineWrites at h
  simp [rampStep, h]

/-- A.SHD after a ramp step that writes. -/
theorem rampStep_writes {s : State} (h : engineWrites s = true) :
    (rampStep s).genA.shd = clampDuty (rampAdvance s.params.wrapCmp s.ramp).duty s.genA.period := by
  unfold engineWrites at h
  simp [h]

theorem rampStep_genA_en (s : State) : (rampStep s).genA.en = s.genA.en :=
  (rampPhase_gen true s .a).1

theorem rampStep_genA_period (s : State) : (rampStep s).genA.period = s.genA.period :=
  (rampPhase_gen true s .a).2.2

/-! Every write rule but that of A_DUTY commutes with the ramp step while A runs. -/

theorem writeClkcfg_rampStep (w : Word) (s : State) :
    writeClkcfg w (rampStep s) = (writeClkcfg w s).map rampStep := by
  unfold writeClkcfg
  rw [rampStep_clk, rampStep_genA_en, rampStep_genB]
  split_ifs <;> rfl

theorem writeCtrl_a_rampStep {w : Word} {s : State} (hen : s.genA.en = true) :
    writeCtrl .a w (rampStep s) = (writeCtrl .a w s).map rampStep := by
  have hen' := (rampStep_genA_en s).trans hen
  cases hw : enField w
  case false =>
    rw [writeCtrl_locked (g := .a) hen' hw, writeCtrl_locked (g := .a) hen hw]
    rfl
  case true =>
    rw [writeCtrl_current (g := .a) (hw.trans hen'.symm), writeCtrl_current (g := .a) (hw.trans hen.symm)]
    rfl

theorem writePeriod_a_rampStep {w : Word} {s : State} (hen : s.genA.en = true) :
    writePeriod .a w (rampStep s) = (writePeriod .a w s).map rampStep := by
  have hen' := (rampStep_genA_en s).trans hen
  have hper := congrArg BitVec.toNat (rampStep_genA_period s)
  by_cases hw : w.toNat = s.genA.period.toNat
  case pos =>
    rw [writePeriod_current (g := .a) hen' (hw.trans hper.symm), writePeriod_current (g := .a) hen hw]
    rfl
  case neg =>
    rw [writePeriod_locked (g := .a) hen' (fun h => hw (h.trans hper)),
      writePeriod_locked (g := .a) hen hw]
    rfl

theorem writeDuty_a_rampStep {w : Word} {s : State} (hholds : engineWrites s = false) :
    writeDuty .a w (rampStep s) = (writeDuty .a w s).map rampStep := by
  by_cases hper : s.genA.period = 0#16
  case pos =>
    rw [writeDuty_state (g := .a) ((rampStep_genA_period s).trans hper),
      writeDuty_state (g := .a) hper]
    rfl
  case neg =>
    rw [writeDuty_programmed (g := .a) (by rwa [genOf_a, rampStep_genA_period]),
      writeDuty_programmed (g := .a) hper, rampStep_holds hholds]
    exact congrArg Except.ok (rampStep_holds (s := setGen .a (dutyWrite w s.genA) s) hholds).symm

theorem writeCtrl_b_rampStep (w : Word) (s : State) :
    writeCtrl .b w (rampStep s) = (writeCtrl .b w s).map rampStep := by
  have hgen : genOf .b (rampStep s) = genOf .b s := rampStep_genB s
  cases hen : (genOf .b s).en <;> cases hw : enField w
  case true.false => rw [writeCtrl_locked hen hw, writeCtrl_locked (hgen ▸ hen) hw]; rfl
  case false.true =>
    by_cases hpre : s.clk.diven = false ∨ (genOf .b s).period = 0#16
    case pos => rw [writeCtrl_state hen hw hpre, writeCtrl_state (hgen ▸ hen) hw (hgen ▸ hpre)]; rfl
    case neg =>
      obtain ⟨hdiv, hper⟩ := not_or.mp hpre
      rw [Bool.not_eq_false] at hdiv
      rw [writeCtrl_start hen hw hdiv hper,
        writeCtrl_start (s := rampStep s) (hgen ▸ hen) hw hdiv (hgen ▸ hper)]
      rfl
  all_goals
    rw [writeCtrl_current (hw.trans hen.symm), writeCtrl_current (hw.trans (hgen ▸ hen.symm))]
    rfl

theorem writePeriod_b_rampStep (w : Word) (s : State) :
    writePeriod .b w (rampStep s) = (writePeriod .b w s).map rampStep := by
  unfold writePeriod
  dsimp only [genOf_b, rampStep_genB]
  split_ifs <;> rfl

theorem writeDuty_b_rampStep (w : Word) (s : State) :
    writeDuty .b w (rampStep s) = (writeDuty .b w s).map rampStep := by
  unfold writeDuty
  dsimp only [genOf_b, rampStep_genB]
  split_ifs <;> rfl

theorem writeTctrl_rampStep (w : Word) (s : State) :
    writeTctrl w (rampStep s) = (writeTctrl w s).map rampStep := by
  unfold writeTctrl
  rw [rampStep_timer, rampStep_genA_en]
  split
  case h_1 => split_ifs <;> rfl
  all_goals rfl

theorem writeTreload_rampStep (w : Word) (s : State) :
    writeTreload w (rampStep s) = (writeTreload w s).map rampStep := by
  unfold writeTreload
  rw [rampStep_timer]
  split_ifs <;> rfl

theorem writeRule_rampStep {r : Reg} {w : Word} {s : State} (hen : s.genA.en = true)
    (hduty : engineWrites s = true → r ≠ .aDuty) :
    writeRule r w (rampStep s) = (writeRule r w s).map rampStep := by
  cases r
  case clkcfg => exact writeClkcfg_rampStep w s
  case aCtrl => exact writeCtrl_a_rampStep hen
  case aPeriod => exact writePeriod_a_rampStep hen
  case aDuty => exact writeDuty_a_rampStep (by simpa using hduty)
  case bCtrl => exact writeCtrl_b_rampStep w s
  case bPeriod => exact writePeriod_b_rampStep w s
  case bDuty => exact writeDuty_b_rampStep w s
  case tctrl => exact writeTctrl_rampStep w s
  case treload => exact writeTreload_rampStep w s
  all_goals rfl

/-! The host's part of the cycle commutes with the ramp step. -/

theorem performWrite_rampStep {r : Reg} {w : Word} {rule : Word → State → Except ErrCode State}
    {s : State} (h : rule w (rampStep s) = (rule w s).map rampStep) :
    performWrite r w rule (rampStep s) = onNext rampStep (performWrite r w rule s) := by
  unfold performWrite
  rw [h]
  cases rule w s <;> rfl

theorem performRead_rampStep {r : Reg} {s : State} (hen : s.genA.en = true)
    (hduty : engineWrites s = true → r ≠ .aDuty) :
    performRead r (rampStep s) = onNext rampStep (performRead r s) := by
  have hread : regRead r (rampStep s) = regRead r s := by
    by_cases hr : r = .aDuty
    case neg => exact regRead_rampPhase (tick := true) (fun _ => hen) hr
    case pos =>
      have hholds : engineWrites s = false := by
        rw [← Bool.not_eq_true]
        exact fun hw => hduty hw hr
      rw [rampStep_holds hholds, hr]
      rfl
  simp only [performRead, hread]
  rfl

theorem perform_rampStep {req : Option Request} {s : State} (hen : s.genA.en = true)
    (hduty : engineWrites s = true → ∀ rq, req = some rq →
      rq.req ≠ writeWord .aDuty ∧ rq.req ≠ readWord .aDuty) :
    perform req (rampStep s) = onNext rampStep (perform req s) := by
  obtain rfl | ⟨r, w, rfl⟩ | ⟨r, w, rfl⟩ | ⟨rq, code, rfl, hd⟩ := request_cases req
  · rfl
  · rw [perform_read, perform_read]
    exact performRead_rampStep hen fun hw hr => (hduty hw _ rfl).2 (by rw [hr])
  · rw [perform_write, perform_write]
    exact performWrite_rampStep (writeRule_rampStep hen fun hw hr => (hduty hw _ rfl).1 (by rw [hr]))
  · rw [perform_error_of_decode hd, perform_error_of_decode hd]
    rfl

/-- Settles O28. Without a tick there is no ramp step; with one A runs, and the transaction commutes with
the ramp step (`perform_rampStep`). -/
theorem orderShowsOnlyOnACollision : Obligations.OrderShowsOnlyOnACollision := by
  intro s req hinv hno
  have hphase : accessPhase .busFirst (timerTick s.timer) req (countersPhase s) =
      accessPhase .rampFirst (timerTick s.timer) req (countersPhase s) := by
    cases htick : timerTick s.timer
    case false =>
      show onNext (rampPhase false) (perform req (countersPhase s)) = perform req (countersPhase s)
      cases perform req (countersPhase s) <;> rfl
    case true =>
      refine (perform_rampStep ?running fun hw => hno htick ?writes).symm
      case running => simpa using hinv.running_of_tick htick
      case writes => exact (engineWrites_iff _).mp hw
  exact congrArg (onNext driveOutputs) hphase

/-- A step on a decided write of a register that its rule accepts, with either order. -/
theorem step_write_accepted {s t : State} {r : Reg} {w : Word} {order : Order}
    (hin : cycleInput s = { rst := false, request := some ⟨writeWord r, w⟩, order := order })
    (h : writeRule r w (accessState s) = .ok t) :
    step s = .next (endCycle s (respondOkay 0#32 t)) := by
  rw [step_eq (by rw [hin]), hin, perform_write, performWrite_of_ok h]
  rfl

/-- In a state of 10_state.md R46 a running generator has its period programmed. -/
theorem BlockInv.period_ne_zero {s : State} (h : BlockInv s) {g : GenId}
    (hen : (genOf g s).en = true) : (genOf g s).period ≠ 0#16 := by
  obtain ⟨-, -, hrun⟩ := h.generatorInv g
  obtain ⟨hper, -⟩ := hrun hen
  intro h0
  simp [h0] at hper

/-- A.SHD, and its read, after a ramp step that writes on the tick of a cycle. -/
theorem rampStep_countersPhase_shd {s : State} (h : engineWrites s = true) :
    (rampStep (countersPhase s)).genA.shd.toNat =
      min (rampAdvance s.params.wrapCmp s.ramp).duty.toNat s.genA.period.toNat := by
  rw [rampStep_writes (s := countersPhase s) h, clampDuty_toNat, countersPhase_genA, countGenerator_period]
  rfl

theorem regRead_aDuty_toNat (s : State) : (regRead .aDuty s).toNat = s.genA.shd.toNat :=
  BitVec.toNat_setWidth_of_le (by decide)

/-- Settles O29. The later of the two writes is the one that A.SHD keeps, and the read returns A.SHD
before or after the ramp step, which writes on this tick. -/
theorem collisionOnADuty : Obligations.CollisionOnADuty := by
  intro s w order hinv htick r hwrites
  have hen := hinv.running_of_tick htick
  have hper := hinv.period_ne_zero (g := .a) hen
  have hengine : engineWrites s = true := by
    rw [engineWrites_iff]
    rwa [show r.elapsedMs.toNat = _ from (elapsedCountsTicks _ _).1] at hwrites
  refine ⟨?write, ?read⟩
  case write =>
    rw [step_write_accepted (r := .aDuty) rfl
      (writeDuty_programmed (g := .a) (by rwa [accessState_gen_period]))]
    refine ⟨_, rfl, by simp, ?_⟩
    cases order
    case busFirst =>
      show (rampPhase (timerTick s.timer) (respondOkay 0#32
        (setGen .a (dutyWrite w (countersPhase s).genA) (countersPhase s)))).genA.shd.toNat = _
      rw [htick, rampPhase_true, rampStep_writes (by exact hengine), clampDuty_toNat]
      simp [r]
    case rampFirst =>
      show (clampDuty w (genOf .a (accessState _)).period).toNat = _
      rw [clampDuty_toNat, accessState_gen_period]
      rfl
  case read =>
    rw [step_eq rfl, cycleInput_decideInput, show 0x4048#16 = readWord .aDuty from rfl, perform_read]
    refine ⟨_, rfl, by simp, ?_⟩
    rw [endCycle_rdata, respondOkay_out, regRead_aDuty_toNat]
    have hramp := rampStep_countersPhase_shd hengine
    cases order
    case busFirst =>
      refine ⟨?_, by simp [accessState, tickBefore]⟩
      show (rampPhase (timerTick s.timer) (respondOkay _ (countersPhase s))).genA.shd.toNat = _
      rw [htick]
      exact hramp
    case rampFirst =>
      rw [← rampPhase_true, ← htick] at hramp
      exact ⟨hramp, hramp⟩

/-- Settles O30. The running timer accepts the 0, whatever the order; and the tick was sampled before it
(`step_ramp`). -/
theorem stopDoesNotCancelATick : Obligations.StopDoesNotCancelATick := by
  intro s w order htick hw
  have hstop : writeRule .tctrl w (accessState (decideInput
      { rst := false, request := some ⟨0xC100#16, w⟩, order := order } s)) = .ok _ :=
    writeTctrl_stop (by simpa using ((timerTick_iff _).mp htick).1) hw
  have hstep := step_write_accepted rfl hstop
  exact ⟨_, hstep, by simp, by rw [step_ramp hstep rfl]; exact if_pos htick, by simp⟩

end Sys2Proof.Machine
end

section
/-! PROOF. The statements of the family 42_timer_ramp.md about the ticks of many cycles. -/

namespace Sys2Proof.Machine

/-- A running timer in a cycle with RST low and no write of TCTRL: only phase 2 acts on it. -/
theorem step_timer_running {s t : State} (h : step s = .next t) (hrst : (cycleInput s).rst = false)
    (hen : s.timer.en = true)
    (hreq : ∀ rq, (cycleInput s).request = some rq → rq.req ≠ writeWord .tctrl) :
    t.timer = countTimer s.timer := by
  obtain ⟨u, hu, -, rfl⟩ := step_low h hrst
  rw [endCycle_timer, ← accessState_timer]
  refine perform_frame (part := State.timer) (fun _ _ => rfl) (fun _ _ _ => rfl) ?_ hu
  intro r w t hr ht
  refine writeRule_timer ?_ (by simpa using hen) ht
  rintro rfl
  exact hreq _ hr rfl

/-- A run of one step and k more. -/
theorem run_succ (M : Host.Core) {k : Nat} {s u : M.State} (h : M.step s = .next u) :
    M.run (k + 1) s = M.run k u := by
  rw [Host.Core.run, h]

/-- The cycles of a run in which the timer only counts: RST low, and no write of TCTRL. -/
def CountsOnly (cycles : List CycleInput) : Prop :=
  ∀ i ∈ cycles, i.rst = false ∧ ∀ rq, i.request = some rq → rq.req ≠ writeWord .tctrl

/-- One such cycle: its inputs are spent, and the timer and the ramp step as in 42_timer_ramp.md R145 and
R150. -/
theorem step_counts {i : CycleInput} {rest : List CycleInput} {s u : State} (h : step s = .next u)
    (hin : s.inputs = i :: rest) (hcount : CountsOnly (i :: rest)) (hen : s.timer.en = true) :
    u.inputs = rest ∧ u.params = s.params ∧ u.timer = countTimer s.timer ∧
      u.ramp = if timerTick s.timer then rampAdvance s.params.wrapCmp s.ramp else s.ramp := by
  have hi : cycleInput s = i := by simp [cycleInput, hin]
  obtain ⟨hrst, hreq⟩ := hcount i List.mem_cons_self
  rw [← hi] at hrst hreq
  obtain ⟨hparams, hinputs, -⟩ := step_own_fields h
  exact ⟨by simp [hinputs, spendInput, hin], hparams, step_timer_running h hrst hen hreq,
    step_ramp h hrst⟩

/-- From any count of a running timer: if the cycles up to the next tick's reload and the full periods
after it fill the run, each period has one tick, and the timer ends just loaded. -/
theorem run_ticks (n : Count24) (hn : 1 ≤ n.toNat) (cycles : List CycleInput) (m : Nat) (s t : State)
    (htimer : s.timer.en = true ∧ s.timer.n = n) (htcnt : s.timer.tcnt.toNat ≤ n.toNat - 1)
    (hin : s.inputs = cycles) (hcount : CountsOnly cycles)
    (hlen : cycles.length + (n.toNat - 1 - s.timer.tcnt.toNat) = m * n.toNat)
    (hrun : core.run cycles.length s = .next t) :
    t.ramp = (rampAdvance s.params.wrapCmp)^[m] s.ramp ∧
      t.timer = { en := true, n := n, tcnt := n - 1#24 } ∧ t.inputs = [] := by
  obtain ⟨hen, hreload⟩ := htimer
  induction cycles generalizing s m with
  | nil =>
    cases hrun
    have hm : m = 0 := by
      by_contra hm
      have hle := Nat.le_mul_of_pos_left n.toNat (Nat.pos_of_ne_zero hm)
      simp only [List.length_nil] at hlen
      omega
    subst hm
    have hloaded : t.timer.tcnt = n - 1#24 := by
      apply BitVec.eq_of_toNat_eq
      rw [sub_one_toNat hn]
      simp only [List.length_nil] at hlen
      omega
    exact ⟨rfl, by rw [← hen, ← hloaded, ← hreload], hin⟩
  | cons i rest ih =>
    obtain ⟨u, hu⟩ := step_total s
    obtain ⟨hin', hparams, htimer', hramp'⟩ := step_counts hu hin hcount hen
    have hrun' := (run_succ core hu).symm.trans hrun
    have hcount' : CountsOnly rest := fun j hj => hcount j (List.mem_cons_of_mem i hj)
    have hen' : u.timer.en = true := by rw [htimer', countTimer_en, hen]
    have hreload' : u.timer.n = n := by rw [htimer', countTimer_n, hreload]
    have htcnt' := countTimer_tcnt hen (by rwa [hreload])
    rw [← htimer', hreload] at htcnt'
    rw [List.length_cons] at hlen
    by_cases h0 : s.timer.tcnt = 0#24
    case pos =>
      rw [if_pos ((timerTick_iff _).mpr ⟨hen, h0⟩)] at hramp'
      rw [if_pos h0] at htcnt'
      have hz : s.timer.tcnt.toNat = 0 := by rw [h0]; rfl
      cases m with
      | zero => omega
      | succ m =>
        rw [Nat.succ_mul] at hlen
        rw [Function.iterate_succ_apply, ← hramp', ← hparams]
        exact ih m u htcnt'.le hin' hcount' (by omega) hrun' hen' hreload'
    case neg =>
      rw [if_neg (by rw [timerTick_iff]; exact fun h => h0 h.2)] at hramp'
      have hpos := one_le_toNat h0
      rw [if_neg h0] at htcnt'
      rw [← hramp', ← hparams]
      exact ih m u (by omega) hin' hcount' (by omega) hrun' hen' hreload'

/-- Settles O31. A just loaded timer is the case of `run_ticks` with no cycle before the full periods. -/
theorem ticksFallEveryNCycles : Obligations.TicksFallEveryNCycles := by
  intro m s t cycles hen hn htcnt hin hlen hcount hrun
  have hpos := one_le_toNat hn
  have hloaded : s.timer.tcnt.toNat = s.timer.n.toNat - 1 := by rw [htcnt, sub_one_toNat hpos]
  obtain ⟨hramp, htimer, hinputs⟩ := run_ticks s.timer.n hpos cycles m s t ⟨hen, rfl⟩ hloaded.le hin
    hcount (by omega) hrun
  refine ⟨hramp, ?_, hinputs⟩
  rw [htimer, ← hen, ← htcnt]

end Sys2Proof.Machine
end

section
/-! PROOF. The statements of the family 41_pwm_generator.md about the levels and the periods. -/

namespace Sys2Proof.Machine

/-- The output level of a running generator in natural numbers (41_pwm_generator.md R125). -/
theorem outLevel_eq {g : Generator} (hen : g.en = true)
    (hact : g.act.toNat ≤ g.period.toNat) :
    outLevel g = decide (g.period.toNat - g.act.toNat ≤ g.cnt.toNat) := by
  rw [outLevel, hen, Bool.true_and, decide_eq_decide]
  omega

/-- Among 0 to p - 1 the numbers from p - a on are a many. -/
theorem length_filter_range_ge {a p : Nat} (h : a ≤ p) :
    ((List.range p).filter (fun c => decide (p - a ≤ c))).length = a := by
  obtain ⟨d, rfl⟩ := Nat.exists_eq_add_of_le' h
  have hlow : (List.range d).filter (fun c => decide (d ≤ c)) = [] := by simp
  rw [Nat.add_sub_cancel, List.range_add, List.filter_append, hlow, List.filter_map]
  simp [Function.comp_def]

/-- Settles O15. At the counts of a full period the level is high from PERIOD - ACT on
(`outLevel_eq`). -/
theorem highTimeIsActiveDuty : Obligations.HighTimeIsActiveDuty := by
  intro g hen hact
  rw [← length_filter_range_ge hact]
  congr 1
  refine List.filter_congr fun c hc => ?_
  have hlt : c < g.period.toNat := List.mem_range.mp hc
  have hcnt : (BitVec.ofNat 16 c).toNat = c := by
    rw [BitVec.toNat_ofNat, Nat.mod_eq_of_lt (hlt.trans g.period.isLt)]
  have hlevel := outLevel_eq (g := { g with cnt := BitVec.ofNat 16 c }) hen hact
  rwa [hcnt] at hlevel

/-- A duty write of the value that a running generator's shadow holds changes nothing. -/
theorem dutyWrite_shd_running {g : Generator} (hen : g.en = true) (hshd : g.shd.toNat ≤ g.period.toNat) :
    dutyWrite (g.shd.setWidth 32) g = g := by
  unfold dutyWrite
  rw [clampDuty_zext _ _ hshd, if_pos hen]

/-- Settles O16. The level's comparison at ACT = 0 and at ACT = PERIOD, and a write that is clamped to
itself (`dutyWrite_shd_running`). -/
theorem constantLevelsAtTheBounds : Obligations.ConstantLevelsAtTheBounds := by
  intro g s hinv hen
  obtain ⟨hshd, hact, hrun⟩ := hinv
  obtain ⟨hper, hcnt, -⟩ := hrun hen
  rw [outLevel_eq hen hact]
  refine ⟨fun h0 => ?low, fun hfull => ?high, ?repeated⟩
  case low =>
    have hz : (genOf g s).act.toNat = 0 := by rw [h0]; rfl
    rw [decide_eq_false_iff_not]
    omega
  case high => simp [hfull]
  case repeated =>
    have hne : (genOf g s).period ≠ 0#16 := fun h0 => by simp [h0] at hper
    rw [exec_dutyRegWrite_dutyReg, performWrite_of_ok (writeDuty_programmed hne),
      dutyWrite_shd_running hen hshd, setGen_genOf]
    rfl

/-! The distance to the boundary (41_pwm_generator.md R120 to R122). -/

theorem eq_sub_one_mul_add {n : Nat} (d : Nat) (h : 1 ≤ n) : n * d = (n - 1) * d + d := by
  obtain ⟨k, rfl⟩ := Nat.exists_eq_add_of_le' h
  rw [Nat.add_sub_cancel, Nat.succ_mul]

/-- The boundary is 0 cycles away exactly when the coming cycle is its PWM tick at CNT = 0. -/
theorem cyclesToBoundary_eq_zero_iff {c : Clock} {g : Generator} (hc : ClockInv c)
    (hdiv : c.diven = true) : cyclesToBoundary c g = 0 ↔ pwmTick c = true ∧ g.cnt = 0#16 := by
  have hD := divisor_pos c
  unfold ClockInv at hc
  have hcnt : g.cnt = 0#16 ↔ g.cnt.toNat = 0 := by rw [← BitVec.toNat_inj]; rfl
  rw [cyclesToBoundary, Nat.add_eq_zero_iff, Nat.mul_eq_zero, or_iff_left hD.ne', pwmTick, hdiv,
    Bool.true_and, pscAtEnd_iff, hcnt]
  omega

/-- In the boundary's cycle phase 2 reloads PERIOD × D - 1. -/
theorem cyclesToBoundary_reload {c : Clock} {g : Generator} (hc : ClockInv c) (hdiv : c.diven = true)
    (hen : g.en = true) (hper : 1 ≤ g.period.toNat) (htick : pwmTick c = true) (h0 : g.cnt = 0#16) :
    cyclesToBoundary (countClock c) (countGenerator (pwmTick c) g) + 1 =
      g.period.toNat * divisor c := by
  have hD := divisor_pos c
  have hend : pscAtEnd c = true := by simpa [pwmTick, hdiv] using htick
  have hcnt : (periodBoundary g).cnt.toNat = g.period.toNat - 1 := sub_one_toNat hper
  rw [htick, countGenerator_boundary hen h0, cyclesToBoundary, divisor_countClock,
    countClock_psc hc hdiv, if_pos hend, hcnt, eq_sub_one_mul_add _ hper]
  omega

/-- In any other cycle phase 2 brings a running generator one cycle nearer to its boundary. -/
theorem cyclesToBoundary_count {c : Clock} {g : Generator} (hc : ClockInv c) (hdiv : c.diven = true)
    (hen : g.en = true) (hno : ¬ (pwmTick c = true ∧ g.cnt = 0#16)) :
    cyclesToBoundary (countClock c) (countGenerator (pwmTick c) g) + 1 = cyclesToBoundary c g := by
  have hD := divisor_pos c
  have htick : pwmTick c = pscAtEnd c := by rw [pwmTick, hdiv, Bool.true_and]
  unfold cyclesToBoundary
  rw [divisor_countClock, countClock_psc hc hdiv, htick]
  unfold ClockInv at hc
  cases hend : pscAtEnd c
  case false =>
    have hne : c.psc.toNat ≠ divisor c - 1 := by rw [ne_eq, ← pscAtEnd_iff, hend]; decide
    rw [countGenerator_no_tick, if_neg Bool.false_ne_true]
    omega
  case true =>
    have hlast := (pscAtEnd_iff c).mp hend
    have h0 : g.cnt ≠ 0#16 := fun h0 => hno ⟨htick.trans hend, h0⟩
    have hpos := one_le_toNat h0
    rw [countGenerator_counts hen h0, if_pos rfl, eq_sub_one_mul_add _ hpos, sub_one_toNat hpos]
    omega

/-- The distance to the boundary reads CNT alone of a generator. -/
theorem cyclesToBoundary_congr {c : Clock} {g g' : Generator} (h : g.cnt = g'.cnt) :
    cyclesToBoundary c g = cyclesToBoundary c g' := by
  rw [cyclesToBoundary, h, cyclesToBoundary]

/-- Settles O17. After a cycle with RST low the clock, CNT and ACT of a running generator are those of
phase 2, whose count brings the boundary nearer or reloads it. -/
theorem periodLastsPeriodTimesD : Obligations.PeriodLastsPeriodTimesD := by
  intro g s t hinv hen hrst h
  obtain ⟨-, hcnt, -, hact⟩ := step_running h hrst hen
  obtain ⟨u, -, he, rfl⟩ := step_low h hrst
  have hclk : (endCycle s u).clk = countClock s.clk := by
    rw [endCycle_clk, he.clk_running g (by rw [accessState_gen_en, hen]), accessState_clk]
  obtain ⟨-, -, hrun⟩ := hinv.generatorInv g
  obtain ⟨hper, -, hdiv⟩ := hrun hen
  obtain ⟨hc, -⟩ := hinv
  rw [hclk, cyclesToBoundary_congr hcnt, hact, ne_eq, cyclesToBoundary_eq_zero_iff hc hdiv]
  refine ⟨fun hno => ⟨cyclesToBoundary_count hc hdiv hen hno, ?act⟩, fun ⟨htick, h0⟩ =>
    ⟨cyclesToBoundary_reload hc hdiv hen hper htick h0, ?load⟩⟩
  case act =>
    cases htick : pwmTick s.clk
    case false => rw [countGenerator_no_tick]
    case true => rw [countGenerator_counts hen fun h0 => hno ⟨htick, h0⟩]
  case load => rw [htick, countGenerator_boundary hen h0]; rfl

/-! An enable and a duty write in a cycle. -/

theorem encode_ctrlWrite (g : GenId) (w : Word) :
    encode (ctrlWrite g w) = ⟨writeWord (ctrlReg g), w⟩ := by
  cases g <;> rfl

theorem encode_dutyRegWrite (g : GenId) (w : Word) :
    encode (dutyRegWrite g w) = ⟨writeWord (dutyReg g), w⟩ := by
  cases g <;> rfl

theorem writeRule_ctrlReg (g : GenId) : writeRule (ctrlReg g) = writeCtrl g := by cases g <;> rfl

theorem writeRule_dutyReg (g : GenId) : writeRule (dutyReg g) = writeDuty g := by cases g <;> rfl

/-- `endCycle` leaves CNT of a generator. -/
theorem endCycle_gen_cnt (g : GenId) (s u : State) :
    (genOf g (endCycle s u)).cnt = (genOf g u).cnt := by
  simp [endCycle, (rampPhase_gen _ _ g).2.1]

/-- Settles O18. The enable acts after phase 2, so it meets the prescaler that this cycle leaves, and
loads PERIOD - 1. -/
theorem firstPeriodAfterEnable : Obligations.FirstPeriodAfterEnable := by
  intro g s w order hinv hin hstop hw hdiv hper
  have hc : ClockInv (countClock s.clk) := clockInv_countClock hinv.1
  rw [encode_ctrlWrite] at hin
  have hstart := writeCtrl_start (g := g) (w := w) (s := accessState s) (by rwa [accessState_gen_en])
    hw (by simpa using hdiv) (by rwa [accessState_gen_period])
  rw [← writeRule_ctrlReg] at hstart
  refine ⟨_, divisor (countClock s.clk) - (countClock s.clk).psc.toNat,
    step_write_accepted hin hstart, by simp, ?_⟩
  rw [endCycle_clk, respondOkay_clk, setGen_clk, accessState_clk]
  unfold ClockInv at hc
  refine ⟨by omega, Nat.sub_le _ _, Nat.add_sub_cancel' hc.le, ?distance⟩
  case distance =>
    rw [cyclesToBoundary, endCycle_gen_cnt, genOf_respondOkay, genOf_setGen_same,
      accessState_gen_period, sub_one_toNat (one_le_toNat hper), divisor_countClock]
    rw [divisor_countClock] at hc
    show _ = _ * divisor s.clk + _
    omega

/-- Settles O20. Phase 2 has loaded the old shadow when the write comes, and without a ramp step after it
the write's shadow stays. -/
theorem boundaryLoadsTheOldShadow : Obligations.BoundaryLoadsTheOldShadow := by
  intro g s w order hinv hin hen htick h0 hno
  rw [encode_dutyRegWrite] at hin
  have haccess : genOf g (accessState s) = periodBoundary (genOf g s) := by
    rw [genOf_accessState hno, htick, countGenerator_boundary hen h0]
  have hwrite := writeDuty_programmed (g := g) (w := w) (s := accessState s)
    (by rw [accessState_gen_period]; exact hinv.period_ne_zero hen)
  rw [← writeRule_dutyReg] at hwrite
  refine ⟨_, step_write_accepted hin hwrite, ?_⟩
  rw [genOf_endCycle hno, genOf_respondOkay, genOf_setGen_same, haccess]
  exact ⟨dutyWrite_act_running w _ hen, clampDuty_toNat w _, rfl, by simp⟩

end Sys2Proof.Machine
end

section
/-! PROOF. The frames of the writes, and 20_memory.md R65: what an operation leaves when it is repeated. -/

namespace Sys2Proof.Machine

/-! The frame of a write to one generator (41_pwm_generator.md R127, R110). -/

/-- The registers that a write to a generator may change. -/
def generatorWindow : GenId → List Reg
  | .a => [.aCtrl, .aPeriod, .aDuty, .aDutyact, .aCount, .errstat, .errdata]
  | .b => [.bCtrl, .bPeriod, .bDuty, .bDutyact, .bCount, .errstat, .errdata]

/-- The two states differ in the generator, the error record and the response at most. -/
def GeneratorFrame (g : GenId) (s t : State) : Prop :=
  t = { setGen g (genOf g t) s with err := t.err, out := t.out } ∧
    t.out.pwmA = s.out.pwmA ∧ t.out.pwmB = s.out.pwmB

theorem regRead_setGen {g : GenId} {r : Reg} (hr : r ∉ generatorWindow g) (x : Generator)
    (e : ErrorStatus) (o : Outputs) (s : State) :
    regRead r { setGen g x s with err := e, out := o } = regRead r s := by
  cases g <;> cases r <;> simp [generatorWindow, regRead] at hr ⊢

theorem GeneratorFrame.regRead_eq {g : GenId} {s t : State} (h : GeneratorFrame g s t) {r : Reg}
    (hr : r ∉ generatorWindow g) : regRead r t = regRead r s := by
  obtain ⟨heq, -⟩ := h
  rw [heq, regRead_setGen hr]

/-- A write whose rule reaches one generator only keeps its frame; and what the rule keeps of the
generator, the write keeps, accepted or not. -/
theorem performWrite_generatorFrame {P : Generator → Prop} {g : GenId} {r : Reg} {w : Word}
    {rule : Word → State → Except ErrCode State} {s t : State} (hs : P (genOf g s))
    (hrule : ∀ t, rule w s = .ok t → ∃ x, t = setGen g x s ∧ P x)
    (h : performWrite r w rule s = .next t) : GeneratorFrame g s t ∧ P (genOf g t) := by
  obtain ⟨t, ht, rfl⟩ | ⟨code, -, rfl⟩ := performWrite_next h
  · obtain ⟨x, rfl, hx⟩ := hrule t ht
    rw [genOf_respondOkay, genOf_setGen_same]
    refine ⟨⟨?_, by simp, by simp⟩, hx⟩
    cases g <;> rfl
  · rw [genOf_busError]
    refine ⟨⟨?_, rfl, rfl⟩, hs⟩
    cases g <;> rfl

theorem ctrlWrite_ne_periodWrite (g : GenId) (w : Word) : ctrlWrite g w ≠ periodWrite g w := by
  cases g <;> exact nofun

theorem ctrlWrite_ne_dutyRegWrite (g : GenId) (w : Word) : ctrlWrite g w ≠ dutyRegWrite g w := by
  cases g <;> exact nofun

theorem periodWrite_ne_dutyRegWrite (g : GenId) (w : Word) : periodWrite g w ≠ dutyRegWrite g w := by
  cases g <;> exact nofun

/-- Settles O44. Each of the three rules reaches its generator only, and keeps of it what the clause
says. -/
theorem generatorWriteFrame : Obligations.GeneratorWriteFrame := by
  intro g w i s t hi h
  obtain ⟨hframe, hctrl, hperiod, hduty⟩ : GeneratorFrame g s t ∧
      (i = ctrlWrite g w →
        (genOf g t).period = (genOf g s).period ∧ (genOf g t).shd = (genOf g s).shd) ∧
      (i = periodWrite g w →
        (genOf g t).en = (genOf g s).en ∧ (genOf g t).cnt = (genOf g s).cnt) ∧
      (i = dutyRegWrite g w → (genOf g t).en = (genOf g s).en ∧
        (genOf g t).period = (genOf g s).period ∧ (genOf g t).cnt = (genOf g s).cnt) := by
    obtain rfl | rfl | rfl := hi
    case inl =>
      rw [exec_ctrlWrite_ctrlReg] at h
      obtain ⟨hframe, hkeep⟩ := performWrite_generatorFrame
        (P := fun x => x.period = (genOf g s).period ∧ x.shd = (genOf g s).shd) ⟨rfl, rfl⟩
        (fun _ => writeCtrl_reach) h
      exact ⟨hframe, fun _ => hkeep, fun he => absurd he (ctrlWrite_ne_periodWrite g w),
        fun he => absurd he (ctrlWrite_ne_dutyRegWrite g w)⟩
    case inr.inl =>
      rw [exec_periodWrite_periodReg] at h
      obtain ⟨hframe, hkeep⟩ := performWrite_generatorFrame
        (P := fun x => x.en = (genOf g s).en ∧ x.cnt = (genOf g s).cnt) ⟨rfl, rfl⟩
        (fun _ => writePeriod_reach) h
      exact ⟨hframe, fun he => absurd he.symm (ctrlWrite_ne_periodWrite g w), fun _ => hkeep,
        fun he => absurd he (periodWrite_ne_dutyRegWrite g w)⟩
    case inr.inr =>
      rw [exec_dutyRegWrite_dutyReg] at h
      obtain ⟨hframe, hkeep⟩ := performWrite_generatorFrame
        (P := fun x => x.en = (genOf g s).en ∧ x.period = (genOf g s).period ∧
          x.cnt = (genOf g s).cnt) ⟨rfl, rfl, rfl⟩
        (fun _ ht => ⟨_, (writeDuty_ok ht).2, rfl, rfl, rfl⟩) h
      exact ⟨hframe, fun he => absurd he.symm (ctrlWrite_ne_dutyRegWrite g w),
        fun he => absurd he.symm (periodWrite_ne_dutyRegWrite g w), fun _ => hkeep⟩
  have ⟨heq, hpwmA, hpwmB⟩ := hframe
  exact ⟨heq, hpwmA, hpwmB, hctrl, hperiod, hduty,
    fun r hr => hframe.regRead_eq (by cases g <;> exact hr)⟩

theorem regRead_clkcfg_frame {r : Reg} (hr : r ∉ [.clkcfg, .errstat, .errdata]) (c : Clock)
    (e : ErrorStatus) (o : Outputs) (s : State) :
    regRead r { s with clk := c, err := e, out := o } = regRead r s := by
  cases r <;> simp [regRead] at hr ⊢

/-- Settles O45. An accepted write reaches the clock only (`writeClkcfg_reach`), and a bus error the record
and the response only. -/
theorem clockWriteFrame : Obligations.ClockWriteFrame := by
  intro w s t h
  rw [exec_wrClkcfg] at h
  obtain ⟨t, ht, rfl⟩ | ⟨code, -, rfl⟩ := performWrite_next h
  · obtain ⟨c, rfl⟩ := writeClkcfg_reach ht
    exact ⟨rfl, rfl, rfl, fun _ => rfl, (nomatch ·), fun r hr => regRead_clkcfg_frame hr c s.err _ s⟩
  · exact ⟨rfl, rfl, rfl, (nomatch ·), fun _ => rfl, fun r hr => regRead_clkcfg_frame hr s.clk _ _ s⟩

/-! The frame of a write to the timer (42_timer_ramp.md R158). -/

/-- The two states differ in the timer, the error record and the response at most. -/
def TimerFrame (s t : State) : Prop :=
  t = { s with timer := t.timer, err := t.err, out := t.out } ∧
    t.out.pwmA = s.out.pwmA ∧ t.out.pwmB = s.out.pwmB

theorem regRead_timer_frame {r : Reg} (hr : r ∉ [.tctrl, .treload, .tcount, .errstat, .errdata])
    (x : Timer) (e : ErrorStatus) (o : Outputs) (s : State) :
    regRead r { s with timer := x, err := e, out := o } = regRead r s := by
  cases r <;> simp [regRead] at hr ⊢

theorem TimerFrame.regRead_eq {s t : State} (h : TimerFrame s t) {r : Reg}
    (hr : r ∉ [.tctrl, .treload, .tcount, .errstat, .errdata]) : regRead r t = regRead r s := by
  obtain ⟨heq, -⟩ := h
  rw [heq, regRead_timer_frame hr]

/-- A write whose rule reaches the timer only keeps its frame; and what the rule keeps of the timer, the
write keeps, accepted or not. -/
theorem performWrite_timerFrame {P : Timer → Prop} {r : Reg} {w : Word}
    {rule : Word → State → Except ErrCode State} {s t : State} (hs : P s.timer)
    (hrule : ∀ t, rule w s = .ok t → ∃ x, t = { s with timer := x } ∧ P x)
    (h : performWrite r w rule s = .next t) : TimerFrame s t ∧ P t.timer := by
  obtain ⟨t, ht, rfl⟩ | ⟨code, -, rfl⟩ := performWrite_next h
  · obtain ⟨x, rfl, hx⟩ := hrule t ht
    exact ⟨⟨rfl, rfl, rfl⟩, hx⟩
  · exact ⟨⟨rfl, rfl, rfl⟩, hs⟩

/-- Settles O46. Each of the two rules reaches the timer only, and keeps of it what the clause says. -/
theorem timerWriteFrame : Obligations.TimerWriteFrame := by
  intro w i s t hi h
  obtain ⟨hframe, hctrl, hreload⟩ : TimerFrame s t ∧ (i = .wrTctrl w → t.timer.n = s.timer.n) ∧
      (i = .wrTreload w → t.timer.en = s.timer.en ∧ t.timer.tcnt = s.timer.tcnt) := by
    obtain rfl | rfl := hi
    case inl =>
      obtain ⟨hframe, hkeep⟩ := performWrite_timerFrame (P := fun x => x.n = s.timer.n) rfl
        (fun _ => writeTctrl_reach) h
      exact ⟨hframe, fun _ => hkeep, nofun⟩
    case inr =>
      obtain ⟨hframe, hkeep⟩ := performWrite_timerFrame
        (P := fun x => x.en = s.timer.en ∧ x.tcnt = s.timer.tcnt) ⟨rfl, rfl⟩
        (fun _ => writeTreload_reach) h
      exact ⟨hframe, nofun, fun _ => hkeep⟩
  have ⟨heq, hpwmA, hpwmB⟩ := hframe
  exact ⟨heq, hpwmA, hpwmB, hctrl, hreload, fun r hr => hframe.regRead_eq hr⟩

end Sys2Proof.Machine
end

section
/-! PROOF. The statement of 20_memory.md R65 about an operation made again at once. -/

namespace Sys2Proof.Machine

/-- An operation is the read of a register or its write. -/
theorem exec_cases (i : Instr) :
    (isWrite i = false ∧ ∃ r, ∀ s, exec i s = performRead r s) ∨
      (isWrite i = true ∧ ∃ r w, ∀ s, exec i s = performWrite r w (writeRule r) s) := by
  obtain ⟨-, -, -, -, -, -, r, -, hop⟩ := encode_form i
  cases hi : isWrite i
  case false =>
    have hread : readOp r = i := by simpa [hi] using hop
    exact .inl ⟨rfl, r, fun s => by rw [← hread, exec_readOp]⟩
  case true =>
    have hwrite : writeOp r (encode i).wdata = some i := by simpa [hi] using hop
    refine .inr ⟨rfl, r, (encode i).wdata, fun s => ?_⟩
    generalize (encode i).wdata = w at hwrite
    cases r <;> cases hwrite <;> rfl

theorem regRead_respondOkay (r : Reg) (v : Word) (s : State) :
    regRead r (respondOkay v s) = regRead r s := by cases r <;> rfl

/-! What an accepted write leaves is accepted again, and changes nothing more. -/

theorem writeClkcfg_again {w : Word} {s t : State} (h : writeClkcfg w s = .ok t) :
    writeClkcfg w (respondOkay 0#32 t) = .ok (respondOkay 0#32 t) := by
  apply writeClkcfg_unchanged
  unfold writeClkcfg at h
  split at h
  case isTrue hsame => cases h; exact hsame
  case isFalse =>
    split at h
    · cases h
    · cases h; exact ⟨rfl, rfl⟩

theorem writeCtrl_again {g : GenId} {w : Word} {s t : State} (h : writeCtrl g w s = .ok t) :
    writeCtrl g w (respondOkay 0#32 t) = .ok (respondOkay 0#32 t) := by
  apply writeCtrl_current
  rw [genOf_respondOkay]
  cases hen : (genOf g s).en <;> cases hw : enField w
  case true.false =>
    rw [writeCtrl_locked hen hw] at h
    cases h
  case false.true =>
    by_cases hpre : s.clk.diven = false ∨ (genOf g s).period = 0#16
    case pos =>
      rw [writeCtrl_state hen hw hpre] at h
      cases h
    case neg =>
      obtain ⟨hdiv, hper⟩ := not_or.mp hpre
      rw [writeCtrl_start hen hw (by simpa using hdiv) hper] at h
      cases h
      rw [genOf_setGen_same]
  all_goals
    rw [writeCtrl_current (hw.trans hen.symm)] at h
    cases h
    exact hen.symm

theorem writePeriod_again {g : GenId} {w : Word} {s t : State} (h : writePeriod g w s = .ok t) :
    writePeriod g w (respondOkay 0#32 t) = .ok (respondOkay 0#32 t) := by
  cases hen : (genOf g s).en
  case true =>
    by_cases hw : w.toNat = (genOf g s).period.toNat
    case pos =>
      rw [writePeriod_current hen hw] at h
      cases h
      exact writePeriod_current (by simpa using hen) (by simpa using hw)
    case neg =>
      rw [writePeriod_locked hen hw] at h
      cases h
  case false =>
    by_cases hrange : w.toNat = 0 ∨ 0xFFFF < w.toNat
    case pos =>
      rw [writePeriod_range hen hrange] at h
      cases h
    case neg =>
      have hmin : min (BitVec.ofNat 16 (min (genOf g s).shd.toNat w.toNat)).toNat w.toNat =
          min (genOf g s).shd.toNat w.toNat := by
        rw [BitVec.toNat_ofNat]
        omega
      rw [writePeriod_store hen (by omega) (by omega)] at h
      cases h
      rw [writePeriod_store (by simp) (by omega) (by omega)]
      simp only [genOf_respondOkay, genOf_setGen_same, hmin]
      cases g <;> rfl

theorem writeDuty_again {g : GenId} {w : Word} {s t : State} (h : writeDuty g w s = .ok t) :
    writeDuty g w (respondOkay 0#32 t) = .ok (respondOkay 0#32 t) := by
  obtain ⟨hper, rfl⟩ := writeDuty_ok h
  rw [writeDuty_programmed (by simpa using hper)]
  have hgen : dutyWrite w (genOf g (respondOkay 0#32 (setGen g (dutyWrite w (genOf g s)) s))) =
      genOf g (respondOkay 0#32 (setGen g (dutyWrite w (genOf g s)) s)) := by simp
  rw [hgen, setGen_genOf]

theorem writeTctrl_again {w : Word} {s t : State} (h : writeTctrl w s = .ok t) :
    writeTctrl w (respondOkay 0#32 t) = .ok (respondOkay 0#32 t) := by
  apply writeTctrl_current
  rw [respondOkay_timer]
  cases hen : s.timer.en <;> cases hw : enField w
  case true.false =>
    rw [writeTctrl_stop hen hw] at h
    cases h
    rfl
  case false.true =>
    by_cases hpre : s.genA.en = false ∨ s.timer.n = 0#24
    case pos =>
      rw [writeTctrl_state hen hw hpre] at h
      cases h
    case neg =>
      obtain ⟨ha, hn⟩ := not_or.mp hpre
      rw [writeTctrl_start hen hw (by simpa using ha) hn] at h
      cases h
      rfl
  all_goals
    rw [writeTctrl_current (hw.trans hen.symm)] at h
    cases h
    exact hen.symm

theorem writeTreload_again {w : Word} {s t : State} (h : writeTreload w s = .ok t) :
    writeTreload w (respondOkay 0#32 t) = .ok (respondOkay 0#32 t) := by
  cases hen : s.timer.en
  case true =>
    by_cases hw : w.toNat = s.timer.n.toNat
    case pos =>
      rw [writeTreload_current hen hw] at h
      cases h
      exact writeTreload_current hen hw
    case neg =>
      rw [writeTreload_locked hen hw] at h
      cases h
  case false =>
    by_cases hrange : w.toNat = 0 ∨ 0xFFFFFF < w.toNat
    case pos =>
      rw [writeTreload_range hen hrange] at h
      cases h
    case neg =>
      rw [writeTreload_store hen (by omega) (by omega)] at h
      cases h
      rw [writeTreload_store rfl (by omega) (by omega)]
      rfl

theorem writeRule_again {r : Reg} {w : Word} {s t : State} (h : writeRule r w s = .ok t) :
    writeRule r w (respondOkay 0#32 t) = .ok (respondOkay 0#32 t) := by
  cases r
  case clkcfg => exact writeClkcfg_again h
  case aCtrl | bCtrl => exact writeCtrl_again h
  case aPeriod | bPeriod => exact writePeriod_again h
  case aDuty | bDuty => exact writeDuty_again h
  case tctrl => exact writeTctrl_again h
  case treload => exact writeTreload_again h
  all_goals cases h

/-- Settles O47. A read changes only the response, so it finds its register as before; an accepted write
is accepted again in the state it leaves (`writeRule_again`); and only an error reaches the count. -/
theorem accessesAreIdempotent : Obligations.AccessesAreIdempotent := by
  intro i s t h
  obtain ⟨hi, r, hexec⟩ | ⟨hi, r, w, hexec⟩ := exec_cases i
  case inl =>
    rw [hexec] at h
    cases h
    refine ⟨fun _ => ⟨rfl, ?_⟩, fun hwrite => by simp [hi] at hwrite, (nomatch ·)⟩
    rw [hexec, performRead, regRead_respondOkay]
    rfl
  case inr =>
    rw [hexec] at h
    refine ⟨fun hread => by simp [hi] at hread, fun _ hresp => ?again, fun hresp => ?counts⟩
    case again =>
      obtain ⟨t, ht, rfl⟩ | ⟨code, -, rfl⟩ := performWrite_next h
      · rw [hexec, performWrite_of_ok (writeRule_again ht)]
        rfl
      · cases hresp
    case counts =>
      obtain ⟨t, -, rfl⟩ | ⟨code, -, rfl⟩ := performWrite_next h
      · cases hresp
      · exact errorCapture_count code _ s.err

end Sys2Proof.Machine
end

section
/-! PROOF. The statements of the family 60_exceptions.md about the host: its contract and the button
dispatch. -/

namespace Sys2Proof.Machine

theorem presetDuty_le {d : Nat} (h : d ∈ buttonTable.map Prod.snd) : d ≤ 62500 := by
  revert d
  decide

/-- What a request of the contract does once both periods are programmed: no error, no change of the
timer, and to B at most a write of a preset duty (60_exceptions.md R198 to R200). -/
theorem perform_contract {req : Option Request} {u v : State} (hreq : req.all contractRequest = true)
    (ha : u.genA.period ≠ 0#16) (hb : u.genB.period ≠ 0#16) (h : perform req u = .next v) :
    v.err = u.err ∧ v.timer = u.timer ∧
      (v.genB = u.genB ∨
        ∃ w : Word, w.toNat ∈ buttonTable.map Prod.snd ∧ v.genB = dutyWrite w u.genB) := by
  cases req with
  | none => cases h; exact ⟨rfl, rfl, .inl rfl⟩
  | some rq =>
    rw [Option.all_some] at hreq
    cases hd : decode rq.req rq.wdata with
    | error code => simp [contractRequest, hd] at hreq
    | op i =>
      rw [perform_op_of_decode hd] at h
      cases i
      case wrADuty w =>
        rw [exec_wrADuty, performWrite_of_ok (writeDuty_programmed (g := .a) ha)] at h
        cases h
        exact ⟨rfl, rfl, .inl rfl⟩
      case wrBDuty w =>
        rw [exec_wrBDuty, performWrite_of_ok (writeDuty_programmed (g := .b) hb)] at h
        cases h
        exact ⟨rfl, rfl, .inr ⟨w, by simpa [contractRequest, hd] using hreq, rfl⟩⟩
      case wrClkcfg | wrACtrl | wrAPeriod | wrBCtrl | wrBPeriod | wrTctrl | wrTreload =>
        simp [contractRequest, hd, isWrite] at hreq
      all_goals
        cases h
        exact ⟨rfl, rfl, .inl rfl⟩

/-- Settles O58. The transaction raises no error, leaves the timer running and B a preset shadow
(`perform_contract`); B's active duty stays or takes the old shadow in phase 2; and the generators keep
running at their periods (`step_running`). -/
theorem contractKeepsProductRun : Obligations.ContractKeepsProductRun := by
  intro s t hrun hcontract h
  obtain ⟨hinv, hfault, ha, hb, htimer, hperA, hperB, hshd, hact⟩ := hrun
  obtain ⟨hrst, hreq⟩ : (cycleInput s).rst = false ∧
      (cycleInput s).request.all contractRequest = true := by simpa [contractInput] using hcontract
  obtain ⟨ha', -, hperA', -⟩ := step_running (g := .a) h hrst ha
  obtain ⟨hb', -, hperB', hact'⟩ := step_running (g := .b) h hrst hb
  have hinv' := stepKeepsBlockInvariant s t hinv h
  obtain ⟨u, hu, -, rfl⟩ := step_low h hrst
  obtain ⟨herr, htimer', hgenB⟩ := perform_contract hreq
    (by rw [← genOf_a, accessState_gen_period, genOf_a, hperA]; decide)
    (by rw [accessState_genB, countGenerator_period, hperB]; decide) hu
  refine ⟨hinv', ?fault, ha', hb', ?timer, hperA'.trans hperA, hperB'.trans hperB, ?shd, ?act⟩
  case fault => simpa [NoFault, herr] using hfault
  case timer => simpa [htimer'] using htimer
  case shd =>
    rw [endCycle_genB]
    obtain hsame | ⟨w, hw, hwrite⟩ := hgenB
    · rwa [hsame, accessState_genB, countGenerator_shd]
    · rw [hwrite, dutyWrite_shd, clampDuty_toNat, accessState_genB, countGenerator_period, hperB,
        Nat.min_eq_left (by exact presetDuty_le hw)]
      exact hw
  case act =>
    rw [← genOf_b, hact', genOf_b]
    cases htick : pwmTick s.clk
    case false => rwa [countGenerator_no_tick]
    case true =>
      by_cases h0 : s.genB.cnt = 0#16
      · rw [countGenerator_boundary hb h0]; exact hshd
      · rw [countGenerator_counts hb h0]; exact hact

/-- The duties of the mapped bits that are set, lowest bit first (60_exceptions.md R200). -/
def mappedDuties (b2 b3 b4 b5 : Bool) : List Nat :=
  (if b2 then [1875] else []) ++ (if b3 then [3125] else []) ++ (if b4 then [5000] else []) ++
    (if b5 then [7187] else [])

/-- What the dispatch writes of the selected duties (60_exceptions.md R200). -/
def dispatchDuties (policy : BtnPolicy) : List Nat → Option Nat
  | [] => none
  | [duty] => some duty
  | duty :: _ :: _ =>
    match policy with
    | .lowestBitWins => some duty
    | .singleBitOnly => none

theorem buttonDispatch_eq (policy : BtnPolicy) (status : Word) :
    buttonDispatch policy status = dispatchDuties policy (mappedDuties (status.getLsbD 2)
      (status.getLsbD 3) (status.getLsbD 4) (status.getLsbD 5)) := by
  have hduties : (buttonTable.filter (fun p => status.getLsbD p.1)).map Prod.snd =
      mappedDuties (status.getLsbD 2) (status.getLsbD 3) (status.getLsbD 4) (status.getLsbD 5) := by
    simp only [buttonTable, List.filter_cons, List.filter_nil, mappedDuties]
    split_ifs <;> rfl
  rw [buttonDispatch, hduties]
  rfl

/-- Settles O59. The dispatch reads only the four mapped bits (`buttonDispatch_eq`), so the table is a
check of their sixteen values for each policy. -/
theorem buttonDispatchTable : Obligations.ButtonDispatchTable := by
  intro policy status b
  rw [show buttonDispatch policy status = dispatchDuties policy (mappedDuties (b 2) (b 3) (b 4) (b 5))
    from buttonDispatch_eq policy status]
  clear_value b
  generalize b 2 = b2, b 3 = b3, b 4 = b4, b 5 = b5
  revert b2 b3 b4 b5
  cases policy <;> decide

end Sys2Proof.Machine
end
